-- ==== Sys2Proof/Word.lean ====
section
/-! DEFINITION. The two word sizes of the block (R10): a byte is 8 bits, a word is 32 bits, every value unsigned. -/

namespace Sys2Proof

/-- A 32-bit word: a header or payload word, a register value, a Mode-4 tile row (R10, R80). -/
abbrev Word := BitVec 32

/-- A byte: a pixel channel, a name character, a Mode-0 tile row (R10). -/
abbrev Byte := BitVec 8

end Sys2Proof
end

