-- ==== Sys2Proof/Config.lean ====
section
/-! DEFINITION. The implementation parameter the spec leaves open (R9): the sixteen reference colours of Mode-0; and the one free
value of the model: the bytes beyond the end of a buffer.

The parameters that R8 fixes (8 by 8 pixels a tile, 16 palette entries, groups of 8 tiles, pairs of 2 colours, 32-bit
indices) stand as numerals and as the widths of the types where the rules use them. The other open parameters of R9,
the image memory and its length, belong to the host and change between commands: they are fields of the state. -/

namespace Sys2Proof

/-- A 24-bit RGB colour: one entry of M0_REF_PALETTE (R9, R114). -/
structure Rgb where
  r : Byte
  g : Byte
  b : Byte
deriving DecidableEq, Repr, Inhabited

/-- M0_REF_PALETTE (R9, R114): the sixteen fixed reference colours of Mode-0. The spec gives no value of any entry, so this
constant has no body and nothing can be proved of its entries. DESIGN CHOICE (log entry 5): the state holds the table as a
field and this is the field's value at reset, so that every meaning takes the table as an argument. Safe. -/
opaque Config.m0RefPalette : Vector Rgb 16

/-- What a byte at or beyond IMG_LEN reads as, after the host has rebound a shorter buffer between the TILE commands of an image
(R275): the spec has the TILE go on (R69) and states no such byte. A free value, one for each binding of a buffer and each
offset. DESIGN CHOICE (log entry 7). Safe. -/
opaque Config.byteBeyondBuffer : Nat → Nat → Byte

end Sys2Proof
end

