-- ==== Sys2Proof/Syntax.lean ====
section
/-! DEFINITION. The commands of the block: one constructor for each row of the opcode table (R82). -/

namespace Sys2Proof

/-- MODE (R23): the tile format of a run, chosen once by RUN_START. `mode4` is the bit value 0, `mode0` the bit value 1. -/
inductive Mode where
  | mode4
  | mode0
deriving DecidableEq, Repr, Inhabited

/-- The five commands (R82). -/
inductive Instr where
  /-- RUN_START (R83, R200) with its MODE operand. -/
  | runStart (mode : Mode)
  /-- IMAGE_BEGIN (R84, R201): the width and height in pixels and the bytes of the image's name. -/
  | imageBegin (w h : Word) (name : List Byte)
  /-- TILE (R86, R210). -/
  | tile
  /-- FINALIZE (R87, R215). -/
  | finalize
  /-- READ_REG (R88, R220) with its register number. -/
  | readReg (reg : BitVec 8)
deriving DecidableEq, Repr

end Sys2Proof
end

