-- ==== Sys2Proof/Machine/State.lean ====
section
/-! DEFINITION. The state of the block (R20 to R40), the channels and the memory its host binds (R60, R61, R80, R92, R94), the
reasons a step can stop, and the state after power-on reset (R270). -/

namespace Sys2Proof.Machine

/-- RUN_STATE (R22). Its five values are the only ones ever held. -/
inductive RunState where
  /-- Value 0: after power-on reset, no run started. -/
  | idle
  /-- Value 1: a run is started and no image is active. -/
  | ready
  /-- Value 2: an image is active and at least one of its tiles is not yet encoded. -/
  | image
  /-- Value 3: FINALIZE has completed. -/
  | finalized
  /-- Value 4: a fatal error occurred in this run. -/
  | faulted
deriving DecidableEq, Repr, Inhabited

/-- The status of a response (R92, R240). Code 4, UNMAPPABLE_COLOUR, is never a status and has no constructor here. -/
inductive Status where
  | ok
  | invalidDimensions
  | tooManyColoursInTile
  | paletteOverflow
  | illegalCommand
  | badState
  | tileIndexOverflow
  | imageBufferShort
deriving DecidableEq, Repr

/-- The fatal faults of the block (R240, R250). The block takes them: they lead to a next state, RUN_STATE = FAULTED. -/
inductive FatalFault where
  | tooManyColoursInTile
  | paletteOverflow
  | tileIndexOverflow
deriving DecidableEq, Repr

/-- One response (R92): a status and a 32-bit value. -/
structure Response where
  status : Status
  value : Word
deriving DecidableEq, Repr

/-- One output record (R94). -/
inductive Record where
  /-- PAT32, tag 1: one Mode-4 tile row. -/
  | pat32 (w : Word)
  /-- PAT8, tag 2: one Mode-0 tile row. -/
  | pat8 (b : Byte)
  /-- CTB, tag 3: one colour-table byte. -/
  | ctb (b : Byte)
  /-- SYM, tag 4: a sanitized image name and a tile index. -/
  | sym (s : List Byte) (i : Word)
  /-- PAL6, tag 5: one palette entry. -/
  | pal6 (v : BitVec 6)
  /-- PAL12, tag 6: one converted palette entry. -/
  | pal12 (v : BitVec 12)
  /-- DIAG, tag 7: a diagnostic code. -/
  | diag (code : BitVec 4)
deriving DecidableEq, Repr

/-- What the outside world does to the block, in order (R7, R61, R71, R80, R270, R275; log entry 1). -/
inductive HostInput where
  /-- The host puts one word on the command channel. -/
  | word (w : Word)
  /-- The host waits until the response of its last command is delivered (R275). -/
  | awaitResponse
  /-- The host binds IMGMEM to a buffer of these bytes and IMG_LEN to its length, or rewrites IMGMEM so (R61, R71). -/
  | bindImage (bytes : List Byte)
  /-- A power-on (hardware) reset of the block (R270). -/
  | powerOn
deriving DecidableEq, Repr

/-- The state. The fields down to `faultTile` are the block's own (R40); the rest is what R38 calls the parameters of a step,
held here because a step is a function of the state alone: the reference palette, the bound image memory, the command stream,
and what the block has delivered on its two output channels. -/
structure State where
  /-- RUN_STATE (R22). -/
  runState : RunState
  /-- MODE (R23). -/
  mode : Mode
  /-- TILE_INDEX (R24): the index the next tile takes. -/
  tileIndex : Word
  /-- IMAGE_COUNT (R25). -/
  imageCount : Word
  /-- IMG_W (R26). -/
  imgW : Word
  /-- IMG_H (R26). -/
  imgH : Word
  /-- IMG_START (R27). -/
  imgStart : Word
  /-- CUR_TX (R33). -/
  curTX : Word
  /-- CUR_TY (R33). -/
  curTY : Word
  /-- PAL_COUNT (R28). -/
  palCount : BitVec 5
  /-- PAL_ENTRY[0..15] (R28). -/
  palEntry : Vector (BitVec 6) 16
  /-- PAIR_COUNT (R30). -/
  pairCount : BitVec 2
  /-- PAIR_ENTRY[0] (R30), the background colour. -/
  pairEntry0 : BitVec 4
  /-- PAIR_ENTRY[1] (R30), the foreground colour. -/
  pairEntry1 : BitVec 4
  /-- GROUP_POS (R31). -/
  groupPos : BitVec 3
  /-- WARN_UNMAPPABLE (R34). -/
  warnUnmappable : Bool
  /-- FAULT_CODE (R35). -/
  faultCode : BitVec 4
  /-- FAULT_IMAGE (R35). -/
  faultImage : Word
  /-- FAULT_TX (R35). -/
  faultTX : Word
  /-- FAULT_TY (R35). -/
  faultTY : Word
  /-- FAULT_TILE (R35). -/
  faultTile : Word
  /-- M0_REF_PALETTE (R9, R38): no step writes it. -/
  refPalette : Vector Rgb 16
  /-- IMGMEM (R61): the non-zero bytes of the bound buffer, addresses rising (log entry 6). -/
  imgMem : List Host.Cell
  /-- IMG_LEN (R61): the byte length of the bound buffer, of no stated width (log entry 19). -/
  imgLen : Nat
  /-- The host has bound a buffer (R61, R275). The model's own field (log entry 9). -/
  imageBound : Bool
  /-- How many buffers the host has bound: which of the free values of `Config.byteBeyondBuffer` lie beyond the present one. The
  model's own field (log entry 7). -/
  bindings : Nat
  /-- What the host does next (R38 "the command stream"; log entry 1), first item first. -/
  input : List HostInput
  /-- The responses delivered, in command order (R93; log entry 12). -/
  responses : List Response
  /-- The records the sink holds, in emission order (R76, R95; log entry 12). -/
  sink : List Record
deriving DecidableEq, Repr

/-- Why the model stops with a fault: never. The block's own fatal faults lead to a next state (`FatalFault`), and no fault arises
from an image-memory access (R69), so there is no constructor. -/
inductive Fault where
deriving DecidableEq, Repr

/-- Why the model refuses a run. -/
inductive Refusal where
  /-- Raised by `exec` for an instruction without a meaning; there is none in this model. Safe. -/
  | notModelled (mnemonic : String)
  /-- Raised by `step` when the host puts a further word on the channel before it has waited for the response of the command
  before it (R275, I8 of 93_implementation_defined.md). Safe: log entry 2. -/
  | pipelinedIssue
  /-- Raised by `step` when the host rebinds or rewrites IMGMEM after the first word of a command and before it has waited for
  that command's response (R71, R275, I7). Safe: log entry 3. -/
  | imageRewrittenDuringCommand
  /-- Raised by IMAGE_BEGIN when it would compare IMG_LEN and the host has never bound a buffer (R201, R275). Safe: log entry 9. -/
  | imageNotBound
deriving DecidableEq, Repr

/-- The machine right after power-on reset (R40, R270): RUN_STATE = IDLE and every other field 0 or empty. The reference
palette is the open parameter (log entry 5); the host has bound no buffer and issued nothing (log entries 6 and 13). -/
def State.reset : State where
  runState := .idle
  mode := .mode4
  tileIndex := 0
  imageCount := 0
  imgW := 0
  imgH := 0
  imgStart := 0
  curTX := 0
  curTY := 0
  palCount := 0
  palEntry := Vector.replicate 16 0
  pairCount := 0
  pairEntry0 := 0
  pairEntry1 := 0
  groupPos := 0
  warnUnmappable := false
  faultCode := 0
  faultImage := 0
  faultTX := 0
  faultTY := 0
  faultTile := 0
  refPalette := Config.m0RefPalette
  imgMem := []
  imgLen := 0
  imageBound := false
  bindings := 0
  input := []
  responses := []
  sink := []

end Sys2Proof.Machine
end

