-- ==== Sys2Proof/Machine/Ops.lean ====
section
/-! DEFINITION. The named operations: image memory, the two output channels, the palette and pair registers, taking a fatal
fault, and the two resets. -/

namespace Sys2Proof.Machine

/-! ### Codes -/

/-- The 4-bit code of a status (R240). -/
def statusCode : Status → BitVec 4
  | .ok => 0
  | .invalidDimensions => 1
  | .tooManyColoursInTile => 2
  | .paletteOverflow => 3
  | .illegalCommand => 5
  | .badState => 6
  | .tileIndexOverflow => 7
  | .imageBufferShort => 8

/-- The status a fatal fault is reported with (R240, R250). -/
def faultStatus : FatalFault → Status
  | .tooManyColoursInTile => .tooManyColoursInTile
  | .paletteOverflow => .paletteOverflow
  | .tileIndexOverflow => .tileIndexOverflow

/-- UNMAPPABLE_COLOUR (R240): the one code a DIAG record carries (R94). -/
def unmappableCode : BitVec 4 := 4

/-- The tag of a record (R94). -/
def recordTag : Record → Nat
  | .pat32 _ => 1
  | .pat8 _ => 2
  | .ctb _ => 3
  | .sym _ _ => 4
  | .pal6 _ => 5
  | .pal12 _ => 6
  | .diag _ => 7

/-! ### Image memory -/

/-- What IMGMEM reads as at an offset the cell list does not hold: 0x00 (log entry 6). -/
def unlistedByte : Byte := 0

/-- The byte at an offset of IMGMEM. The list is in rising order, so the search stops at the first larger offset. -/
def readByte : List Host.Cell → Nat → Byte
  | [], _ => unlistedByte
  | (k, v) :: rest, a => if a < k then unlistedByte else if a = k then v else readByte rest a

/-- The canonical form of an image memory: offsets strictly rising and at least `lo`, and no cell equal to what an unlisted
offset reads as. -/
def memoryWfFrom : Nat → List Host.Cell → Bool
  | _, [] => true
  | lo, (k, v) :: rest => lo ≤ k && v != unlistedByte && memoryWfFrom (k + 1) rest

/-- The canonical form (log entry 6). -/
def Memory.wf (m : List Host.Cell) : Bool := memoryWfFrom 0 m

/-- The cells of a buffer whose first byte lies at offset `a`. -/
def cellsFrom : Nat → List Byte → List Host.Cell
  | _, [] => []
  | a, b :: rest => if b = unlistedByte then cellsFrom (a + 1) rest else (a, b) :: cellsFrom (a + 1) rest

/-- The host binds IMGMEM and IMG_LEN to a buffer (R61, R71). -/
def State.bindImage (s : State) (bytes : List Byte) : State :=
  { s with
    imgMem := cellsFrom 0 bytes
    imgLen := bytes.length
    imageBound := true
    bindings := s.bindings + 1 }

/-- The byte of IMGMEM at an offset: the bound buffer's below IMG_LEN (R61), a free value beyond it (log entry 7). -/
def imageByte (s : State) (a : Nat) : Byte :=
  if a < s.imgLen then readByte s.imgMem a else Config.byteBeyondBuffer s.bindings a

/-- What is left of the host's inputs (R80). -/
def State.setInput (s : State) (inp : List HostInput) : State := { s with input := inp }

/-! ### Output channels -/

/-- Several `Emit`s in order (R95). The sink always accepts (DESIGN CHOICE, log entry 11). -/
def State.emitAll (s : State) (rs : List Record) : State := { s with sink := s.sink ++ rs }

/-- `Emit` (R13, R95): append one record to the sink. -/
def State.emit (s : State) (r : Record) : State := s.emitAll [r]

/-- `respond` (R13, R93): deliver a response. -/
def State.respond (s : State) (st : Status) (v : Word) : State := { s with responses := s.responses ++ [⟨st, v⟩] }

/-- `reject` (R13, R93): a response with value 0 and no other effect. -/
def State.reject (s : State) (st : Status) : State := s.respond st 0

/-! ### Palette and pair registers -/

/-- PAL as a list (R28): the entries below PAL_COUNT. -/
def State.pal (s : State) : List (BitVec 6) := s.palEntry.toList.take s.palCount.toNat

/-- `PAL <- P` (R183): PAL_COUNT becomes the length of P and PAL_ENTRY[i] becomes P[i]; the entries from the length of P on are
not written (DEDUCED, log entry 16). -/
def State.setPal (s : State) (P : List (BitVec 6)) : State :=
  { s with
    palCount := BitVec.ofNat 5 P.length
    palEntry := Vector.ofFn fun i : Fin 16 => P[i.val]?.getD s.palEntry[i] }

/-- PAIR as a list (R30): the entries below PAIR_COUNT. -/
def State.pair (s : State) : List (BitVec 4) := [s.pairEntry0, s.pairEntry1].take s.pairCount.toNat

/-- `PAIR <- L` (R30): PAIR_COUNT becomes the length of L, and entries at or above it are 0. -/
def State.setPair (s : State) (L : List (BitVec 4)) : State :=
  { s with pairCount := BitVec.ofNat 2 L.length, pairEntry0 := L[0]?.getD 0, pairEntry1 := L[1]?.getD 0 }

/-- The pair and the group position start afresh: `PAIR <- [] ; GROUP_POS <- 0` (R153, R157). -/
def State.closeGroup (s : State) : State := { s.setPair [] with groupPos := 0 }

/-! ### Fatal faults and resets -/

/-- Taking a fatal fault (R250), from the state at the start of the command: nothing else of the command is kept, and
no pixel position is recorded (DEDUCED, log entry 15). -/
def State.takeFault (s : State) (f : FatalFault) : State :=
  { s with
    faultCode := statusCode (faultStatus f)
    faultImage := s.imageCount - 1
    faultTX := s.curTX
    faultTY := s.curTY
    faultTile := s.tileIndex
    runState := .faulted
    responses := s.responses ++ [⟨faultStatus f, 0⟩] }

/-- The block's fields as both resets leave them (R40): everything 0 or empty but for RUN_STATE and MODE. A run-start reset is
also the only return from a fatal fault within the block's power (R253). -/
def State.clearBlock (s : State) (rs : RunState) (m : Mode) : State :=
  { s with
    runState := rs
    mode := m
    tileIndex := 0
    imageCount := 0
    imgW := 0
    imgH := 0
    imgStart := 0
    curTX := 0
    curTY := 0
    palCount := 0
    palEntry := Vector.replicate 16 0
    pairCount := 0
    pairEntry0 := 0
    pairEntry1 := 0
    groupPos := 0
    warnUnmappable := false
    faultCode := 0
    faultImage := 0
    faultTX := 0
    faultTY := 0
    faultTile := 0 }

/-- A power-on reset (R270): no record, no response; the block then waits for a command (DEDUCED, log entry 10:
what it leaves alone). -/
def State.powerOn (s : State) : State := s.clearBlock .idle .mode4

end Sys2Proof.Machine
end

