-- ==== Sys2Proof/Machine/Operands.lean ====
section
/-! DEFINITION. The operand of TILE: the 64 pixels at the tile cursor, read from the image memory (R62 to R64), and the
cursor itself (R33, R211). -/

namespace Sys2Proof.Machine

/-- A pixel (R63, R110). -/
structure Pixel where
  r : Byte
  g : Byte
  b : Byte
  a : Byte
deriving DecidableEq, Repr, Inhabited

/-- `opaque(px)` of R110: any non-zero alpha. -/
def isOpaque (px : Pixel) : Bool := px.a != 0

/-- `MemRead(addr, n)` (R62): the bytes at offsets addr .. addr+n-1, lowest first. No fault arises from it (R69). -/
def memRead (s : State) (addr n : Nat) : List Byte := (List.range n).map fun k => imageByte s (addr + k)

/-- The byte offset of pixel (X, Y) in an image of width W (R63). -/
def pixelOffset (W X Y : Nat) : Nat := 4 * (Y * W + X)

/-- A pixel from its four bytes, lowest address first (R63, R65). -/
def pixelOfBytes : List Byte → Pixel
  | [r, g, b, a] => ⟨r, g, b, a⟩
  | _ => default

/-- `Pixel(X, Y)` of the active image (R63). -/
def readPixel (s : State) (X Y : Nat) : Pixel := pixelOfBytes (memRead s (pixelOffset s.imgW.toNat X Y) 4)

/-- The positions of a tile's pixels in visit order: row-major, y outer and x inner (R64, R150, R180). -/
def tilePositions : List (Nat × Nat) :=
  (List.range 8).flatMap fun y => (List.range 8).map fun x => (x, y)

/-- `FetchTile(tx, ty)` (R64): the 64 pixels in visit order, so that pixel (x, y) of the tile is item 8 * y + x. -/
def fetchTile (s : State) (tx ty : Nat) : List Pixel :=
  tilePositions.map fun p => readPixel s (8 * tx + p.1) (8 * ty + p.2)

/-- The tile at the cursor (R33, R210). -/
def cursorTile (s : State) : List Pixel := fetchTile s s.curTX.toNat s.curTY.toNat

/-- The eight rows of 64 items in visit order (R180, R191). -/
def tileRows {α : Type} (t : List α) : List (List α) :=
  (List.range 8).map fun y => (t.drop (8 * y)).take 8

/-- `AdvanceCursor()` (R211). -/
def advanceCursor (s : State) : State :=
  if s.curTX.toNat + 1 < s.imgW.toNat / 8 then { s with curTX := s.curTX + 1 }
  else if (s.curTY + 1).toNat = s.imgH.toNat / 8 then
    { s with curTX := 0, curTY := s.curTY + 1, runState := .ready }
  else { s with curTX := 0, curTY := s.curTY + 1 }

end Sys2Proof.Machine
end

