-- ==== Sys2Proof/Machine/Classifier.lean ====
section
/-! DEFINITION. The pixel classifier (R110 to R118): a pixel to a quantized colour, or to a Mode-0 colour index. -/

namespace Sys2Proof.Machine

/-- The quantized colour of a pixel's RGB channels: the top 2 bits of each, R in the low bits (R111, R112). -/
def quantize (px : Pixel) : BitVec 6 :=
  (px.r >>> 6).setWidth 6 ||| ((px.g >>> 6).setWidth 6 <<< 2) ||| ((px.b >>> 6).setWidth 6 <<< 4)

/-- CLASSIFY_M4 (R111): `none` is TRANSPARENT, `some q` is Q(q). -/
def classifyM4 (px : Pixel) : Option (BitVec 6) :=
  if px.a = 0 then none else some (quantize px)

/-- The lowest index of the reference palette that holds exactly this RGB (R113). -/
def refIndex (ref : Vector Rgb 16) (px : Pixel) : Option Nat :=
  ref.toList.findIdx? fun e => e.r == px.r && e.g == px.g && e.b == px.b

/-- CLASSIFY_M0 (R113): the Mode-0 colour index, and whether the pixel is unmappable. -/
def classifyM0 (ref : Vector Rgb 16) (px : Pixel) : BitVec 4 × Bool :=
  if px.a = 0 then (0, false)
  else
    match refIndex ref px with
    | some i => (BitVec.ofNat 4 i, false)
    | none => (0, true)

end Sys2Proof.Machine
end

