-- ==== Sys2Proof/Machine/ColourTable.lean ====
section
/-! DEFINITION. The Mode-0 colour-table manager (R150 to R161). -/

namespace Sys2Proof.Machine

/-- The scan of CT_TEST_PAIR (R150) from a list of colours already recorded. Index 0 is never recorded. -/
def testPairFrom (ref : Vector Rgb 16) : List (BitVec 4) → List Pixel → Except FatalFault (List (BitVec 4))
  | test, [] => .ok test
  | test, px :: rest =>
    let c := (classifyM0 ref px).1
    if c ≠ 0 ∧ c ∉ test then
      if test.length = 2 then .error .tooManyColoursInTile else testPairFrom ref (test ++ [c]) rest
    else testPairFrom ref test rest

/-- CT_TEST_PAIR (R150): the tile's colours in order of first appearance. -/
def testPair (ref : Vector Rgb 16) (t : List Pixel) : Except FatalFault (List (BitVec 4)) := testPairFrom ref [] t

/-- CT_COMPATIBLE (R152): the union of the entries has at most 2 members. -/
def compatible (pair test : List (BitVec 4)) : Bool := (pair ++ test).dedup.length ≤ 2

/-- CT_MERGE (R155): colours not already present are appended, in list order. -/
def merge (pair test : List (BitVec 4)) : List (BitVec 4) :=
  test.foldl (fun p c => if c ∈ p then p else p ++ [c]) pair

/-- The colour-table byte of a pair (R156): background in the low nibble, foreground in the high one. -/
def ctByte (pair : List (BitVec 4)) : Byte :=
  (if pair.length = 2 then pair[1]?.getD 0 else 0) ++ (if 1 ≤ pair.length then pair[0]?.getD 0 else 0)

/-- The records of one all-zero pad tile (R153). -/
def padTile : List Record := List.replicate 8 (.pat8 0)

/-- CT_ROLLOVER (R153): the state after it and the number of pad tiles. The index is counted modulo 2^32 until the command
checks its width (R212; log entry 14). -/
def rollover (s : State) : State × Nat :=
  let npads := 8 - s.groupPos.toNat
  let padded := s.emitAll (List.replicate npads padTile).flatten
  let counted := { padded with tileIndex := padded.tileIndex + BitVec.ofNat 32 npads }
  ((counted.emit (.ctb (ctByte counted.pair))).closeGroup, npads)

/-- CT_ADVANCE (R157): the next group position, or the end of the group. -/
def advanceGroup (s : State) : State :=
  if s.groupPos.toNat + 1 = 8 then (s.emit (.ctb (ctByte s.pair))).closeGroup
  else { s with groupPos := s.groupPos + 1 }

/-- CT_FLUSH (R158): the byte of a group left open, and no pad tile. -/
def flush (s : State) : State :=
  if s.groupPos ≠ 0 then s.emit (.ctb (ctByte s.pair)) else s

end Sys2Proof.Machine
end

