-- ==== Sys2Proof/Machine/Flags.lean ====
section
/-! DEFINITION. The one flag of the block, WARN_UNMAPPABLE (R34, R193), and the STATUS register that shows it (R36). -/

namespace Sys2Proof.Machine

/-- `unm_seen` of R190: some pixel of the tile is unmappable. -/
def unmappableSeen (ref : Vector Rgb 16) (t : List Pixel) : Bool := t.any fun px => (classifyM0 ref px).2

/-- The one-time warning (R193): with the flag clear it is set and one DIAG record is emitted; with the flag set nothing
happens. -/
def State.warnIf (s : State) (seen : Bool) : State :=
  if seen && !s.warnUnmappable then { s.emit (.diag unmappableCode) with warnUnmappable := true } else s

/-- The 3-bit value of RUN_STATE (R22). -/
def runStateCode : RunState → BitVec 3
  | .idle => 0
  | .ready => 1
  | .image => 2
  | .finalized => 3
  | .faulted => 4

/-- The bit value of MODE (R23). -/
def modeCode : Mode → BitVec 1
  | .mode4 => 0
  | .mode0 => 1

/-- STATUS, register 0 (R36): [2:0] RUN_STATE, [3] MODE, [4] WARN_UNMAPPABLE, [11:8] FAULT_CODE, all other bits 0. -/
def statusRegister (s : State) : Word :=
  (0 : BitVec 20) ++ s.faultCode ++ (0 : BitVec 3) ++ BitVec.ofBool s.warnUnmappable ++ modeCode s.mode ++
    runStateCode s.runState

end Sys2Proof.Machine
end

