-- ==== Sys2Proof/Machine/EncoderM0.lean ====
section
/-! DEFINITION. The Mode-0 tile encoder (R190 to R195). -/

namespace Sys2Proof.Machine

/-- RowByte(y) of one row of pixels under a pair (R191): bit 7 - x is set where column x has the foreground colour. -/
def rowByte (ref : Vector Rgb 16) (pair : List (BitVec 4)) (row : List Pixel) : Byte :=
  (List.range 8).foldl
    (fun acc x =>
      acc ||| (BitVec.ofBool (pair.length == 2 &&
        (row[x]?.map fun px => (classifyM0 ref px).1) == pair[1]?)).setWidth 8 <<< (7 - x)) 0

/-- The eight pattern rows of a Mode-0 tile, top row first (R190, R192). -/
def rowRecords (ref : Vector Rgb 16) (pair : List (BitVec 4)) (t : List Pixel) : List Record :=
  (tileRows t).map fun row => .pat8 (rowByte ref pair row)

/-- Steps 2 and 3 of R190: a rollover where the tile cannot join the open group. -/
def rolloverIfNeeded (s : State) (test : List (BitVec 4)) : State × Nat :=
  if compatible s.pair test then (s, 0) else rollover s

/-- Steps 4 and 5 of R190: merge, emit the rows, take the tile's own index, advance the group. -/
def placeTile (t : List Pixel) (test : List (BitVec 4)) (s : State) : State :=
  let merged := s.setPair (merge s.pair test)
  let emitted := merged.emitAll (rowRecords merged.refPalette merged.pair t)
  advanceGroup { emitted with tileIndex := emitted.tileIndex + 1 }

/-- EncodeTileM0 (R190): the state after it and the number of pad tiles. -/
def encodeTileM0 (t : List Pixel) (s : State) : Except FatalFault (State × Nat) :=
  match testPair s.refPalette t with
  | .error f => .error f
  | .ok test =>
    let rolled := rolloverIfNeeded (s.warnIf (unmappableSeen s.refPalette t)) test
    .ok (placeTile t test rolled.1, rolled.2)

end Sys2Proof.Machine
end

