-- ==== Sys2Proof/Machine/Palette.lean ====
section
/-! DEFINITION. The Mode-4 palette manager (R130 to R139). -/

namespace Sys2Proof.Machine

/-- PAL_ADD_OR_LOOKUP (R131): the palette after, and the colour's index in it. -/
def addOrLookup (P : List (BitVec 6)) (q : BitVec 6) : Except FatalFault (List (BitVec 6) × BitVec 4) :=
  match P.findIdx? (· == q) with
  | some i => .ok (P, BitVec.ofNat 4 i)
  | none => if P.length = 16 then .error .paletteOverflow else .ok (P ++ [q], BitVec.ofNat 4 P.length)

/-- One channel's 2-bit value scaled into 4 bits (R135). -/
def scaleChannel (c : BitVec 2) : BitVec 4 := c.setWidth 4 * 5

/-- PAL_CONV12 (R135, R136): R in bits [3:0], G in [7:4], B in [11:8]. -/
def conv12 (q : BitVec 6) : BitVec 12 :=
  scaleChannel (q.extractLsb' 4 2) ++ scaleChannel (q.extractLsb' 2 2) ++ scaleChannel (q.extractLsb' 0 2)

/-- PAL_EMIT (R138): the palette's entries, then sixteen converted entries, the unused ones 0. -/
def palRecords (P : List (BitVec 6)) : List Record :=
  P.map .pal6 ++ (List.range 16).map fun i => .pal12 ((P[i]?.map conv12).getD 0)

end Sys2Proof.Machine
end

