-- ==== Sys2Proof/Machine/EncoderM4.lean ====
section
/-! DEFINITION. The Mode-4 tile encoder (R180 to R186). -/

namespace Sys2Proof.Machine

/-- The palette index of one pixel, and the palette after it (the loop body of R180). -/
def indexPixel (P : List (BitVec 6)) (px : Pixel) : Except FatalFault (List (BitVec 6) × BitVec 4) :=
  match classifyM4 px with
  | none => .ok (P, 0)
  | some q => addOrLookup P q

/-- IndexTileM4 (R180): the palette index of each pixel in visit order, and the palette after the last. -/
def indexTile : List (BitVec 6) → List Pixel → Except FatalFault (List (BitVec 4) × List (BitVec 6))
  | P, [] => .ok ([], P)
  | P, px :: rest =>
    match indexPixel P px with
    | .error f => .error f
    | .ok (P1, i) =>
      match indexTile P1 rest with
      | .error f => .error f
      | .ok (is, P2) => .ok (i :: is, P2)

/-- Plane(y, p) of one row of palette indices (R181): bit 7 - x is bit p of column x. -/
def planeByte (row : List (BitVec 4)) (p : Nat) : Byte :=
  (List.range 8).foldl (fun acc x => acc ||| (BitVec.ofBool ((row[x]?.getD 0).getLsbD p)).setWidth 8 <<< (7 - x)) 0

/-- RowWord(y) (R182): plane 3 in the most significant byte, plane 0 in the least. -/
def rowWord (row : List (BitVec 4)) : Word :=
  planeByte row 3 ++ planeByte row 2 ++ planeByte row 1 ++ planeByte row 0

/-- Decode(w)[x] (R186): the palette index of column x of a row word. -/
def unpackColumn (w : Word) (x : Nat) : BitVec 4 :=
  BitVec.ofBool (w.getLsbD (31 - x)) ++ BitVec.ofBool (w.getLsbD (23 - x)) ++ BitVec.ofBool (w.getLsbD (15 - x)) ++
    BitVec.ofBool (w.getLsbD (7 - x))

/-- The eight column indices of a row word (R186). -/
def unpackRow (w : Word) : List (BitVec 4) := (List.range 8).map (unpackColumn w)

/-- EncodeTileM4 (R183): eight row words, top row first, and the grown palette. -/
def encodeTileM4 (t : List Pixel) (s : State) : Except FatalFault State :=
  match indexTile s.pal t with
  | .error f => .error f
  | .ok (idx, P) => .ok ((s.emitAll ((tileRows idx).map fun row => .pat32 (rowWord row))).setPal P)

end Sys2Proof.Machine
end

