-- ==== Sys2Proof/Machine/Registers.lean ====
section
/-! DEFINITION. The register map of READ_REG (R36). -/

namespace Sys2Proof.Machine

/-- PAIR_STATE, register 3 (R36): [1:0] PAIR_COUNT, [7:4] PAIR_ENTRY[0], [11:8] PAIR_ENTRY[1], [18:16] GROUP_POS. -/
def pairStateRegister (s : State) : Word :=
  (0 : BitVec 13) ++ s.groupPos ++ (0 : BitVec 4) ++ s.pairEntry1 ++ s.pairEntry0 ++ (0 : BitVec 2) ++ s.pairCount

/-- PAL_ENTRY_i, register 16 + i (R36): 0 at or above PAL_COUNT. -/
def palEntryRegister (s : State) (i : Nat) : Word :=
  if i < s.palCount.toNat then (s.palEntry[i]?.getD 0).setWidth 32 else 0

/-- RegValue(n) (R36, R220): `none` for the reserved numbers 14, 15 and 32..255. -/
def regValue (s : State) (n : BitVec 8) : Option Word :=
  match n.toNat with
  | 0 => some (statusRegister s)
  | 1 => some s.tileIndex
  | 2 => some (s.palCount.setWidth 32)
  | 3 => some (pairStateRegister s)
  | 4 => some s.imgW
  | 5 => some s.imgH
  | 6 => some s.imgStart
  | 7 => some s.curTX
  | 8 => some s.curTY
  | 9 => some s.imageCount
  | 10 => some s.faultImage
  | 11 => some s.faultTX
  | 12 => some s.faultTY
  | 13 => some s.faultTile
  | k => if 16 ≤ k ∧ k < 32 then some (palEntryRegister s (k - 16)) else none

end Sys2Proof.Machine
end

