-- ==== Sys2Proof/Machine/Symbols.lean ====
section
/-! DEFINITION. The symbol name of an image (R207). -/

namespace Sys2Proof.Machine

/-- The ASCII full stop (R15). -/
def dotByte : Byte := 0x2E

/-- The name up to its last full stop, or all of it where it has none (R207). -/
def stripExtension (name : List Byte) : List Byte :=
  if dotByte ∈ name then ((name.reverse.dropWhile (· != dotByte)).drop 1).reverse else name

/-- One name byte as a symbol byte (R207): upper case, or an underscore. -/
def symbolByte (b : Byte) : Byte :=
  if 0x61 ≤ b ∧ b ≤ 0x7A then b - 0x20
  else if (0x41 ≤ b ∧ b ≤ 0x5A) ∨ (0x30 ≤ b ∧ b ≤ 0x39) then b
  else 0x5F

/-- Sanitize (R207). -/
def sanitize (name : List Byte) : List Byte := (stripExtension name).map symbolByte

end Sys2Proof.Machine
end

