-- ==== Sys2Proof/Machine/Commands.lean ====
section
/-! DEFINITION. The meanings of the five commands (R199 to R220). Each takes the state with the command's words already
consumed and delivers exactly one response (R92). -/

namespace Sys2Proof.Machine

/-- RUN_START (R200): allowed in every state; it ends whatever run there was, a faulted one too (R253). -/
def execRunStart (m : Mode) (s : State) : Host.Outcome State Fault Refusal :=
  .next ((s.clearBlock .ready m).respond .ok 0)

/-- The effect of an accepted IMAGE_BEGIN (R201, R205, R206, R208), without its response. -/
def acceptImage (w h : Word) (name : List Byte) (s : State) : State :=
  { s.emit (.sym (sanitize name) s.tileIndex) with
    imgW := w
    imgH := h
    imgStart := s.tileIndex
    curTX := 0
    curTY := 0
    imageCount := s.imageCount + 1
    runState := if w = 0 ∨ h = 0 then .ready else .image }

/-- IMAGE_BEGIN (R201): the checks stand in the order of R249. Where IMG_LEN is looked at and the host has bound no buffer, the run
breaks a duty of R275 and is refused (log entry 9). -/
def execImageBegin (w h : Word) (name : List Byte) (s : State) : Host.Outcome State Fault Refusal :=
  if s.runState ≠ .ready then .next (s.reject .badState)
  else if w.toNat % 8 ≠ 0 ∨ h.toNat % 8 ≠ 0 then .next (s.reject .invalidDimensions)
  else if s.imageBound = false then .refused .imageNotBound
  else if s.imgLen < 4 * w.toNat * h.toNat then .next (s.reject .imageBufferShort)
  else .next ((acceptImage w h name s).respond .ok 0)

/-- The encoder the run's MODE selects (R118, R210, R216): the provisional state, TILE_INDEX advanced, and the number of pad
tiles. -/
def encodeTile (t : List Pixel) (s : State) : Except FatalFault (State × Nat) :=
  match s.mode with
  | .mode4 =>
    match encodeTileM4 t s with
    | .error f => .error f
    | .ok s1 => .ok ({ s1 with tileIndex := s1.tileIndex + 1 }, 0)
  | .mode0 => encodeTileM0 t s

/-- TILE (R210): a fault of the encoder or of the index width is taken from the state the command found (R250).
The whole tile is read first (DEDUCED, log entry 17). -/
def execTile (s : State) : Host.Outcome State Fault Refusal :=
  if s.runState ≠ .image then .next (s.reject .badState)
  else
    match encodeTile (cursorTile s) s with
    | .error f => .next (s.takeFault f)
    | .ok (s1, npads) =>
      if s.tileIndex.toNat + npads + 1 > 0xFFFFFFFF then .next (s.takeFault .tileIndexOverflow)
      else .next ((advanceCursor s1).respond .ok 0)

/-- What FINALIZE emits (R215): the open group's byte in Mode-0, the palette in Mode-4. -/
def finishOutputs (s : State) : State :=
  match s.mode with
  | .mode0 => flush s
  | .mode4 => s.emitAll (palRecords s.pal)

/-- FINALIZE (R215). -/
def execFinalize (s : State) : Host.Outcome State Fault Refusal :=
  if s.runState ≠ .ready then .next (s.reject .badState)
  else .next (State.respond { finishOutputs s with runState := .finalized } .ok 0)

/-- READ_REG (R220): reserved numbers are rejected, and no state but the response channel changes. -/
def execReadReg (n : BitVec 8) (s : State) : Host.Outcome State Fault Refusal :=
  match regValue s n with
  | none => .next (s.reject .illegalCommand)
  | some v => .next (s.respond .ok v)

end Sys2Proof.Machine
end

