-- ==== Sys2Proof/Machine/Dispatch.lean ====
section
/-! DEFINITION. One arm for each command of the opcode table (R82). -/

namespace Sys2Proof.Machine

def exec (i : Instr) (s : State) : Host.Outcome State Fault Refusal :=
  match i with
  | .runStart mode => Sys2Proof.Machine.execRunStart mode s
  | .imageBegin w h name => Sys2Proof.Machine.execImageBegin w h name s
  | .tile => Sys2Proof.Machine.execTile s
  | .finalize => Sys2Proof.Machine.execFinalize s
  | .readReg reg => Sys2Proof.Machine.execReadReg reg s

end Sys2Proof.Machine
end

