-- ==== Sys2Proof/WellFormed.lean ====
section
/-! DEFINITION. Which commands the encoding can carry and the register map knows (R84, R89). -/

namespace Sys2Proof

/-- The register numbers that READ_REG may name: all but 14, 15 and 32..255 (R36, R89). -/
def regImplemented (n : BitVec 8) : Bool :=
  n.toNat < 14 || (16 ≤ n.toNat && n.toNat < 32)

/-- NAME_LEN is 16 bits wide (R84): a name has at most 65535 bytes. -/
def nameFits (name : List Byte) : Bool :=
  name.length ≤ 65535

/-- A command that the assembler of R97 can write and that is no illegal encoding (R89). -/
def Instr.wellFormed : Instr → Bool
  | .runStart _ => true
  | .imageBegin _ _ name => nameFits name
  | .tile => true
  | .finalize => true
  | .readReg n => regImplemented n

end Sys2Proof
end

