-- ==== Sys2Proof/Decode.lean ====
section
/-! DEFINITION. The command words (R80 to R91): how long a command is, the decoder and the encoder. -/

namespace Sys2Proof

/-- Why a list of words is no command. The first two say that words are missing, the others are the illegal headers of R89. -/
inductive DecodeError where
  /-- There is no header word. -/
  | noHeader
  /-- The header's payload words (R90) are not all there. -/
  | missingPayload
  /-- OP is 0x00 or 0x06..0xFF (R89). -/
  | reservedOpcode (op : BitVec 8)
  /-- A defined OP with a non-zero bit where the format says "must be 0" (R82, R89). -/
  | mustBeZero (header : Word)
deriving DecidableEq, Repr

/-- OP, header bits [31:24] (R81). -/
def opField (h : Word) : BitVec 8 := h.extractLsb' 24 8

/-- IMM24, header bits [23:0] (R81). -/
def immField (h : Word) : BitVec 24 := h.extractLsb' 0 24

/-- NAME_LEN, header bits [15:0] of IMAGE_BEGIN (R84, R91). -/
def nameLenField (h : Word) : Nat := (h.extractLsb' 0 16).toNat

/-- How many payload words follow a header: 2 + ceil(NAME_LEN / 4) for OP 0x02, whatever its other bits, and none for every
other header (R90). -/
def payloadLength (h : Word) : Nat :=
  if opField h = 0x02 then 2 + (nameLenField h + 3) / 4 else 0

/-- The four bytes of a name word, the lowest name position first (R85). -/
def wordBytes (w : Word) : List Byte :=
  [w.extractLsb' 0 8, w.extractLsb' 8 8, w.extractLsb' 16 8, w.extractLsb' 24 8]

/-- The first `n` name bytes of the name words; the bytes after them are padding and are ignored (R85). -/
def nameBytes (n : Nat) (words : List Word) : List Byte :=
  (words.flatMap wordBytes).take n

/-- The mode a MODE bit selects (R23, R83). -/
def modeOfBit (b : Bool) : Mode := if b then .mode0 else .mode4

/-- The MODE bit of a mode (R23, R83). -/
def modeBit : Mode → Bool
  | .mode4 => false
  | .mode0 => true

/-- One command from its header and its payload words (R82 to R91). -/
def decodeCommand (h : Word) (payload : List Word) : Except DecodeError Instr :=
  if opField h = 0x01 then
    if h.extractLsb' 1 23 = 0 then .ok (.runStart (modeOfBit (h.getLsbD 0))) else .error (.mustBeZero h)
  else if opField h = 0x02 then
    if h.extractLsb' 16 8 = 0 then
      match payload with
      | w :: ht :: names => .ok (.imageBegin w ht (nameBytes (nameLenField h) names))
      | _ => .error .missingPayload
    else .error (.mustBeZero h)
  else if opField h = 0x03 then
    if immField h = 0 then .ok .tile else .error (.mustBeZero h)
  else if opField h = 0x04 then
    if immField h = 0 then .ok .finalize else .error (.mustBeZero h)
  else if opField h = 0x05 then
    -- Reserved register numbers are turned away by READ_REG's own pseudocode (R220; log entry 8).
    if h.extractLsb' 8 16 = 0 then .ok (.readReg (h.extractLsb' 0 8)) else .error (.mustBeZero h)
  else .error (.reservedOpcode (opField h))

/-- The decoder: the first command of a list of channel words, and the words after it (R80, R90). -/
def decode : List Word → Except DecodeError (Instr × List Word)
  | [] => .error .noHeader
  | h :: rest =>
    if rest.length < payloadLength h then .error .missingPayload
    else
      match decodeCommand h (rest.take (payloadLength h)) with
      | .ok i => .ok (i, rest.drop (payloadLength h))
      | .error e => .error e

/-- Four name bytes as one word, the first in the low bits (R85). -/
def packWord (a b c d : Byte) : Word := d ++ c ++ b ++ a

/-- A name as words, 4 bytes a word, the padding of the last word written as 0 (R85, R97). -/
def packName : List Byte → List Word
  | [] => []
  | [a] => [packWord a 0 0 0]
  | [a, b] => [packWord a b 0 0]
  | [a, b, c] => [packWord a b c 0]
  | a :: b :: c :: d :: rest => packWord a b c d :: packName rest

/-- A header from OP and IMM24 (R81). -/
def header (op : BitVec 8) (imm : BitVec 24) : Word := op ++ imm

/-- The encoder: the words the assembler of R97 writes for a command. -/
def encode : Instr → List Word
  | .runStart m => [header 0x01 (if modeBit m then 1 else 0)]
  | .imageBegin w h name => header 0x02 (BitVec.ofNat 24 name.length) :: w :: h :: packName name
  | .tile => [header 0x03 0]
  | .finalize => [header 0x04 0]
  | .readReg n => [header 0x05 (n.setWidth 24)]

/-- The pseudo-instruction ENCODE_IMAGE of R98: the image's IMAGE_BEGIN and one TILE for each of its (W/8) * (H/8) tiles.
It requires both sides to be multiples of 8. -/
def expandEncodeImage (w h : Word) (name : List Byte) : Option (List Instr) :=
  if w.toNat % 8 = 0 ∧ h.toNat % 8 = 0 then
    some (.imageBegin w h name :: List.replicate (w.toNat / 8 * (h.toNat / 8)) .tile)
  else none

/-- The words of the instruction whose bits are `w`, numbered as the opcode table numbers them: the first word holds bits
31..0, and every bit above `nbits` is 0. There are as many words as the header says the command has (R90). -/
def tableWords (nbits w : Nat) : List Word :=
  (List.range (1 + payloadLength (BitVec.ofNat 32 (w % 2 ^ nbits)))).map
    fun k => BitVec.ofNat 32 ((w % 2 ^ nbits) >>> (32 * k))

/-- The instruction the decoder reads from an opcode-table word. -/
def decodeTableWord (nbits w : Nat) : Option Instr :=
  match decode (tableWords nbits w) with
  | .ok (i, []) => some i
  | _ => none

end Sys2Proof
end

