-- ==== Sys2Proof/Machine/Fetch.lean ====
section
/-! DEFINITION. How the block takes its next command off the command channel (R80, R90), and what the host does between
commands (R61, R71, R270, R275). -/

namespace Sys2Proof.Machine

/-- What the outside world does before the next command word: it binds an image buffer, it waits for a response that has been
delivered already, or it resets the block (log entry 1). -/
def hostActs : List HostInput → State → State
  | .bindImage bytes :: rest, s => hostActs rest (s.bindImage bytes)
  | .awaitResponse :: rest, s => hostActs rest s
  | .powerOn :: rest, s => hostActs rest s.powerOn
  | inp, s => s.setInput inp

/-- What the block finds on the channel. -/
inductive Arrival where
  /-- No whole command is there; the block keeps waiting (R262). -/
  | waiting
  /-- A whole command, and what the host does after it. -/
  | command (words : List Word) (rest : List HostInput)
  /-- A power-on reset comes before the last word of a command: the words received are gone (log entry 4). -/
  | abandoned (rest : List HostInput)
  /-- The host breaks a duty of R275. -/
  | broken (r : Refusal)
deriving DecidableEq, Repr

/-- What follows the last word of a command. The host may only wait for the response, do nothing, or reset the block (R275). -/
def closeCommand (words : List Word) : List HostInput → Arrival
  | [] => .command words []
  | .awaitResponse :: rest => .command words rest
  | .powerOn :: rest => .command words (.powerOn :: rest)
  | .word _ :: _ => .broken .pipelinedIssue
  | .bindImage _ :: _ => .broken .imageRewrittenDuringCommand

/-- `n` more words of a command; `got` holds the words so far, the latest first. -/
def gather (got : List Word) : Nat → List HostInput → Arrival
  | 0, inp => closeCommand got.reverse inp
  | _ + 1, [] => .waiting
  | n + 1, .word w :: rest => gather (w :: got) n rest
  | _ + 1, .awaitResponse :: _ => .waiting
  | _ + 1, .powerOn :: rest => .abandoned (.powerOn :: rest)
  | _ + 1, .bindImage _ :: _ => .broken .imageRewrittenDuringCommand

/-- The next command: a header and as many payload words as R90 says. -/
def arrival : List HostInput → Arrival
  | .word h :: rest => gather [h] (payloadLength h) rest
  | _ => .waiting

/-- The host issues a command and waits for its response, before all else it does. -/
def placeCommand (words : List Word) (s : State) : State :=
  s.setInput (words.map .word ++ .awaitResponse :: s.input)

end Sys2Proof.Machine
end

