-- ==== Sys2Proof/Machine/Serve.lean ====
section
/-! DEFINITION. What the block does with what it finds on the command channel (R70, R80, R89, R262). -/

namespace Sys2Proof.Machine

/-- The words of a whole command are executed, or rejected with ILLEGAL_COMMAND where they are no command (R89, R245). -/
def runWords (words : List Word) (s : State) : Host.Outcome State Fault Refusal :=
  match decode words with
  | .ok (i, _) => exec i s
  | .error _ => .next (s.reject .illegalCommand)

/-- The block takes a whole command off the channel and runs it; without one it is idle and keeps its state (R262). -/
def serve (s : State) : Arrival → Host.Outcome State Fault Refusal
  | .waiting => .next s
  | .abandoned rest => .next (s.setInput rest)
  | .broken r => .refused r
  | .command words rest => runWords words (s.setInput rest)

end Sys2Proof.Machine
end

