-- ==== Sys2Proof/Machine/Step.lean ====
section
/-! DEFINITION. One step: one command of the block, from the channel to its response (R70, R80, R92). -/

namespace Sys2Proof.Machine

/-- One step (R80). The outside world acts first (R70, R71); then the block serves what it finds on the channel. -/
def step (s : State) : Host.Outcome State Fault Refusal :=
  serve (hostActs s.input s) (arrival (hostActs s.input s).input)

/-- The host issues the command whose bits are `w` next: its words go to the front of the command channel, followed by the wait
for their response (log entry 13). -/
def State.withFetchWord (s : State) (nbits w : Nat) : State := placeCommand (tableWords nbits w) s

end Sys2Proof.Machine
end

