-- ==== Sys2Proof/Safety.lean ====
section
/-! DEFINITION. The terms in which claims about the block are stated: the invariants of its registers, the admission table,
the illegal encodings, the ledger of a run's records, and what makes a run's output valid. -/

namespace Sys2Proof.Machine

/-- The invariants of the block's registers (R22, R29, R30, R32, R33, R35) and of the image memory (R61). -/
structure BlockInvariant (s : State) : Prop where
  /-- The image memory keeps its canonical form. -/
  memory_wf : Memory.wf s.imgMem = true
  /-- No cell lies at or beyond IMG_LEN (R61). -/
  memory_bounded : ∀ c ∈ s.imgMem, c.1 < s.imgLen
  /-- While an image is active the host has bound a buffer (R275): only an IMAGE_BEGIN that has seen one leads there. -/
  image_bound : s.runState = .image → s.imageBound = true
  /-- PAL_COUNT is at most 16 (R29). -/
  palCount_le : s.palCount.toNat ≤ 16
  /-- The palette's entries are pairwise distinct (R29). -/
  pal_nodup : s.pal.Nodup
  /-- Entries at or above PAL_COUNT are 0 (R29). -/
  palEntry_zero : ∀ i : Fin 16, s.palCount.toNat ≤ i.val → s.palEntry[i] = 0
  /-- The palette stays empty in a Mode-0 run (R29). -/
  pal_mode0 : s.mode = .mode0 → s.palCount = 0
  /-- PAIR_COUNT is at most 2 (R30). -/
  pairCount_le : s.pairCount.toNat ≤ 2
  /-- Entries at or above PAIR_COUNT are 0 (R30). -/
  pairEntry0_zero : s.pairCount = 0 → s.pairEntry0 = 0
  /-- Entries at or above PAIR_COUNT are 0 (R30). -/
  pairEntry1_zero : s.pairCount.toNat ≤ 1 → s.pairEntry1 = 0
  /-- The pair's entries are pairwise distinct (R32 (c)). -/
  pair_nodup : s.pair.Nodup
  /-- The pair's entries are in 1..15 (R32 (d)). -/
  pair_nonzero : 0 ∉ s.pair
  /-- GROUP_POS = TILE_INDEX mod 8 in a Mode-0 run (R32 (a)). -/
  groupPos_index : s.mode = .mode0 → s.groupPos.toNat = s.tileIndex.toNat % 8
  /-- GROUP_POS = 0 implies PAIR_COUNT = 0 in a Mode-0 run (R32 (b)). -/
  pair_fresh : s.mode = .mode0 → s.groupPos = 0 → s.pairCount = 0
  /-- PAIR_COUNT and GROUP_POS stay 0 in a Mode-4 run (R32), and so does the Mode-0 warning flag (R34, R193). -/
  mode4_unused : s.mode = .mode4 → s.pairCount = 0 ∧ s.groupPos = 0 ∧ s.warnUnmappable = false
  /-- The cursor lies in the tile grid while an image is active (R33). -/
  cursor_in_grid : s.runState = .image → s.curTX.toNat < s.imgW.toNat / 8 ∧ s.curTY.toNat < s.imgH.toNat / 8
  /-- FAULT_CODE is the code of a fatal fault while FAULTED (R35, R250). -/
  faultCode_faulted : s.runState = .faulted → s.faultCode = 2 ∨ s.faultCode = 3 ∨ s.faultCode = 7
  /-- The fault registers are 0 when there is no fault (R35). -/
  fault_clear : s.runState ≠ .faulted →
    s.faultCode = 0 ∧ s.faultImage = 0 ∧ s.faultTX = 0 ∧ s.faultTY = 0 ∧ s.faultTile = 0
  /-- Before the first RUN_START no image was accepted and no tile encoded (R22, R270). -/
  idle_fresh : s.runState = .idle → s.tileIndex = 0 ∧ s.imageCount = 0

/-- Every field of the block at the reset values of R40, for the RUN_STATE and MODE the reset gives. -/
structure AtResetValues (rs : RunState) (m : Mode) (s : State) : Prop where
  runState : s.runState = rs
  mode : s.mode = m
  tileIndex : s.tileIndex = 0
  imageCount : s.imageCount = 0
  image : s.imgW = 0 ∧ s.imgH = 0 ∧ s.imgStart = 0
  cursor : s.curTX = 0 ∧ s.curTY = 0
  palCount : s.palCount = 0
  palEntry : ∀ i : Fin 16, s.palEntry[i] = 0
  pairCount : s.pairCount = 0
  pairEntry : s.pairEntry0 = 0 ∧ s.pairEntry1 = 0
  groupPos : s.groupPos = 0
  warnUnmappable : s.warnUnmappable = false
  faultCode : s.faultCode = 0
  faultContext : s.faultImage = 0 ∧ s.faultTX = 0 ∧ s.faultTY = 0 ∧ s.faultTile = 0

/-- The state a fatal fault leaves (R250, R251): the state before the command, the fault registers, RUN_STATE and the response. -/
def faultedWith (s : State) (code : BitVec 4) (st : Status) : State :=
  { s with
    faultCode := code
    faultImage := s.imageCount - 1
    faultTX := s.curTX
    faultTY := s.curTY
    faultTile := s.tileIndex
    runState := .faulted
    responses := s.responses ++ [⟨st, 0⟩] }

/-- READ_REG `n` answers OK with the value `k`, and nothing but the response channel changes (R36, R220). -/
def readsAs (s : State) (n : BitVec 8) (k : Nat) : Prop :=
  exec (.readReg n) s = .next { s with responses := s.responses ++ [⟨.ok, BitVec.ofNat 32 k⟩] }

/-- The non-zero Mode-0 colours of a tile's pixels, in visit order (R150). -/
def tileColours (ref : Vector Rgb 16) (t : List Pixel) : List (BitVec 4) :=
  (t.map fun px => (classifyM0 ref px).1).filter (· ≠ 0)

/-- `new` holds the members of `l` once each, in order of first appearance. -/
def FirstAppearances {α : Type} [DecidableEq α] (new l : List α) : Prop :=
  new.Nodup ∧ (∀ c, c ∈ new ↔ c ∈ l) ∧ new.Pairwise fun a b => l.idxOf a < l.idxOf b

/-- The number of pad tiles a Mode-0 tile with these colours needs (R152, R153). -/
def padsNeeded (s : State) (test : List (BitVec 4)) : Nat :=
  if (s.pair ++ test).dedup.length ≤ 2 then 0 else 8 - s.groupPos.toNat

/-- The channel holds exactly one whole command, whose response the host then waits for. -/
def issues (s : State) (h : Word) (payload : List Word) (rest : List HostInput) : Prop :=
  s.input = (h :: payload).map .word ++ .awaitResponse :: rest

/-- The admission table of R199: whether a command runs in a run state. -/
def admitted : Instr → RunState → Bool
  | .runStart _, _ => true
  | .imageBegin _ _ _, rs => rs == .ready
  | .tile, rs => rs == .image
  | .finalize, rs => rs == .ready
  | .readReg _, _ => true

/-- The illegal encodings of R89, read off the header: a reserved OP, a "must be 0" bit that is set, or a reserved register. -/
def illegalHeader (h : Word) : Bool :=
  !(h &&& 0xFFFFFFFE == 0x01000000 || h &&& 0xFFFF0000 == 0x02000000 || h == 0x03000000 || h == 0x04000000 ||
    (h &&& 0xFFFFFF00 == 0x05000000 && regImplemented (h.extractLsb' 0 8)))

/-- The four rejections of R255. -/
def isRejection : Status → Bool
  | .invalidDimensions => true
  | .illegalCommand => true
  | .badState => true
  | .imageBufferShort => true
  | _ => false

/-- A next state changed by `f`; a fault or a refusal as it is. -/
def mapNext (f : State → State) : Host.Outcome State Fault Refusal → Host.Outcome State Fault Refusal
  | .next t => .next (f t)
  | .fault r => .fault r
  | .refused r => .refused r

/-- Commands executed one after another, each after the response of the one before it (R70). -/
def execAll : List Instr → State → Host.Outcome State Fault Refusal
  | [], s => .next s
  | i :: rest, s =>
    match exec i s with
    | .next t => execAll rest t
    | .fault r => .fault r
    | .refused r => .refused r

/-- How many records of a list have a tag (R94). -/
def countTag (n : Nat) (rs : List Record) : Nat := rs.countP fun r => recordTag r == n

/-- The ledger of a run whose first record is number `base` of the sink (R159, R193, R222): how many records of each kind it has
emitted so far. -/
structure RunLedger (base : Nat) (s : State) : Prop where
  /-- The run's records stand after those of earlier runs. -/
  base_le : base ≤ s.sink.length
  /-- Eight PAT32 records a tile in Mode-4, none in Mode-0. -/
  pat32 : countTag 1 (s.sink.drop base) = if s.mode = .mode4 then 8 * s.tileIndex.toNat else 0
  /-- Eight PAT8 records a tile in Mode-0, none in Mode-4. -/
  pat8 : countTag 2 (s.sink.drop base) = if s.mode = .mode0 then 8 * s.tileIndex.toNat else 0
  /-- One CTB record for each full group, and one for an open group once the run is finalized; none in Mode-4. -/
  ctb : countTag 3 (s.sink.drop base) =
    if s.mode = .mode0 then
      s.tileIndex.toNat / 8 + (if s.runState = .finalized ∧ s.tileIndex.toNat % 8 ≠ 0 then 1 else 0)
    else 0
  /-- One SYM record for each accepted image, modulo 2^32. -/
  sym : countTag 4 (s.sink.drop base) % 2 ^ 32 = s.imageCount.toNat
  /-- One DIAG record once an unmappable colour has been met, none before. -/
  diag : countTag 7 (s.sink.drop base) = if s.warnUnmappable then 1 else 0

/-- The run's output is valid: the run has reached FINALIZED without a fatal fault. R254 and R278 (a) give the condition as
necessary ("only if"); that it is sufficient is the model's reading (DEDUCED, log entry 23). -/
def outputValid (s : State) : Bool := s.runState == .finalized && s.faultCode == 0

/-- The position of the cursor in the row-major order of the image's tiles (R211). -/
def cursorOrdinal (s : State) : Nat := s.curTY.toNat * (s.imgW.toNat / 8) + s.curTX.toNat

end Sys2Proof.Machine
end

