-- ==== Sys2Proof/Certificates/Slice0/Obligations.lean ====
section
/-! DEFINITION. The statements about the block. Each docstring names the rules of spec/ it formalises; where a statement rests on a
choice of the model it names the log entry. -/

open Sys2Proof Sys2Proof.Machine

/-! ### Encoding -/

/-- R82 to R91, R97: decoding what the encoder writes for a well-formed command gives the command back, whatever words follow. -/
def Obligations.DecodeEncodeRoundTrip : Prop :=
  ∀ (i : Instr) (rest : List Word), i.wellFormed = true → decode (encode i ++ rest) = .ok (i, rest)

/-- 95_test_vectors.md 2.7 and P1: words written out from R82 to R88 decode to the commands they stand for. -/
def Obligations.SpecWordsDecode : Prop :=
  decode [0x01000001] = .ok (.runStart .mode0, []) ∧
  decode [0x02000007, 8, 8, 0x2E646572, 0x00676E70] =
    .ok (.imageBegin 8 8 [0x72, 0x65, 0x64, 0x2E, 0x70, 0x6E, 0x67], []) ∧
  decode [0x03000000] = .ok (.tile, []) ∧
  decode [0x04000000] = .ok (.finalize, []) ∧
  decode [0x0500001F] = .ok (.readReg 31, []) ∧
  decode [0x06000000] = .error (.reservedOpcode 6)

/-- R84, R85, R91: what a decoded command was read from. The words taken are as many as the encoder writes and agree with them,
but for the padding bytes of a last name word; and those bytes, whatever they hold, do not change the command. -/
def Obligations.DecodedWordsAreTheEncoders : Prop :=
  ∀ (ws : List Word) (i : Instr) (rest : List Word), decode ws = .ok (i, rest) →
    let n := (encode i).length
    ws.drop n = rest ∧ n + rest.length = ws.length ∧ (encode i).dropLast <+: ws ∧
    ((∀ w h name, i = .imageBegin w h name → name.length % 4 = 0) → encode i ++ rest = ws) ∧
    ∀ w h name, i = .imageBegin w h name → name.length % 4 ≠ 0 →
      let nameBits : Word → Nat := fun v => v.toNat % 2 ^ (8 * (name.length % 4))
      nameBits (ws[n - 1]?.getD 0) = nameBits ((encode i)[n - 1]?.getD 0) ∧
      ∀ v : Word, nameBits v = nameBits (ws[n - 1]?.getD 0) → decode (ws.set (n - 1) v) = .ok (i, rest)

/-- R89: the three kinds of illegal encoding are rejected in every state with no effect, and every other header is a command. -/
def Obligations.IllegalEncodingRejected : Prop :=
  ∀ (h : Word) (payload : List Word), payload.length = payloadLength h →
    (illegalHeader h = true → ∀ (s : State) (rest : List HostInput), issues s h payload rest →
      step s = .next { s with input := rest, responses := s.responses ++ [⟨.illegalCommand, 0⟩] }) ∧
    (illegalHeader h = false → ∃ i, i.wellFormed = true ∧ decode (h :: payload) = .ok (i, []))

/-- R90: the length of a command is decided from its header alone, legal or not; the step takes exactly those words off the
channel. The one step that gives no next state is the refusal of R275 for an IMAGE_BEGIN with no buffer ever bound; where the
model refuses it is the model's choice, log entry 9. -/
def Obligations.CommandLengthFromHeader : Prop :=
  ∀ (s : State) (h : Word) (payload : List Word) (rest : List HostInput),
    payload.length = (if h.toNat / 2 ^ 24 = 2 then 2 + (h.toNat % 2 ^ 16 + 3) / 4 else 0) →
    issues s h payload rest →
    (∃ t, step s = .next t ∧ t.input = rest) ∨
      (h.toNat / 2 ^ 24 = 2 ∧ s.runState = .ready ∧ s.imageBound = false ∧ step s = .refused .imageNotBound)

/-! ### The step -/

/-- A step runs the decoded command (R70, R80): when the channel holds the words of a command, the step is `exec` of that command
on the state with those words, and the host's wait for their response, taken off the channel. -/
def Obligations.StepRunsDecodedCommand : Prop :=
  ∀ (s : State) (h : Word) (payload : List Word) (i : Instr) (after rest : List HostInput),
    payload.length = payloadLength h → decode (h :: payload) = .ok (i, []) →
    s.input = (h :: payload).map .word ++ after →
    (after = [] ∧ rest = [] ∨ after = .awaitResponse :: rest) →
    step s = exec i { s with input := rest }

/-- R92: every command, legal or not, produces exactly one response. Its value is the register value for a successful READ_REG and
0 otherwise. -/
def Obligations.OneResponsePerCommand : Prop :=
  ∀ (s : State) (h : Word) (payload : List Word) (rest : List HostInput) (t : State),
    payload.length = payloadLength h → issues s h payload rest → step s = .next t →
    ∃ r, t.responses = s.responses ++ [r] ∧
      (∀ n v, decode (h :: payload) = .ok (.readReg n, []) → regValue s n = some v → r = ⟨.ok, v⟩) ∧
      (r.value ≠ 0 → r.status = .ok ∧ ∃ n, decode (h :: payload) = .ok (.readReg n, []))

/-- R262: with nothing on the channel the block keeps its state. -/
def Obligations.IdleBlockKeepsState : Prop :=
  ∀ s : State, s.input = [] → step s = .next s

/-- R61, R71: a buffer the host binds between commands is the image memory the next command sees. (That the host acts through an
input list is the model's choice, log entry 1.) -/
def Obligations.HostBindsBetweenCommands : Prop :=
  ∀ (s : State) (bytes : List Byte) (inp : List HostInput), s.input = .bindImage bytes :: inp →
    step s = step ({ s with input := inp }.bindImage bytes)

/-- R71, R275: a run is refused in which the host issues a further word, or rebinds the image memory, before it has waited for the
response of a whole command. (How the input list shows this is the model's choice, log entries 2 and 3.) -/
def Obligations.BrokenHostDutyRefused : Prop :=
  ∀ (s : State) (h : Word) (payload : List Word) (rest : List HostInput), payload.length = payloadLength h →
    (∀ w, s.input = (h :: payload).map .word ++ .word w :: rest → step s = .refused .pipelinedIssue) ∧
    (∀ bytes, s.input = (h :: payload).map .word ++ .bindImage bytes :: rest →
      step s = .refused .imageRewrittenDuringCommand)

/-! ### Reset and admission -/

/-- R40: the power-on and the run-start value of every field. RUN_START completes in every state, emits no record and leaves the
image memory, the reference palette and the channel as they are. -/
def Obligations.ResetAndRunStartValues : Prop :=
  AtResetValues .idle .mode4 State.reset ∧
  ∀ (s : State) (m : Mode), ∃ t, exec (.runStart m) s = .next t ∧ AtResetValues .ready m t ∧
    t.sink = s.sink ∧ t.responses = s.responses ++ [⟨.ok, 0⟩] ∧ t.imgMem = s.imgMem ∧ t.imgLen = s.imgLen ∧
    t.imageBound = s.imageBound ∧ t.bindings = s.bindings ∧ t.refPalette = s.refPalette ∧ t.input = s.input

/-- R270: a power-on reset from any state gives every field of the block its power-on value and emits no record; the step then
goes on with what the host does next. (That the reset is an input, and leaves the delivered responses, the records, the bound
buffer and the reference palette alone, is the model's reading, log entry 10.) -/
def Obligations.PowerOnResetFromAnyState : Prop :=
  ∀ (s : State) (rest : List HostInput), s.input = .powerOn :: rest →
    ∃ u, AtResetValues .idle .mode4 u ∧ u.sink = s.sink ∧ u.responses = s.responses ∧ u.imgMem = s.imgMem ∧
      u.imgLen = s.imgLen ∧ u.imageBound = s.imageBound ∧ u.bindings = s.bindings ∧ u.refPalette = s.refPalette ∧
      u.input = rest ∧ step s = step u ∧ (rest = [] → step s = .next u)

/-- R199, R246: a command outside the run states that admit it is rejected with BAD_STATE and no effect; where it is admitted,
BAD_STATE is not the answer. -/
def Obligations.BadStateRejected : Prop :=
  ∀ (i : Instr) (s : State),
    (admitted i s.runState = false →
      exec i s = .next { s with responses := s.responses ++ [⟨.badState, 0⟩] }) ∧
    (admitted i s.runState = true → ∀ t, exec i s = .next t → t.responses ≠ s.responses ++ [⟨.badState, 0⟩])

/-- R255: a rejection changes no state and emits no record. -/
def Obligations.RejectionHasNoEffect : Prop :=
  ∀ (i : Instr) (s t : State) (r : Response), exec i s = .next t → t.responses = s.responses ++ [r] →
    isRejection r.status = true → t = { s with responses := s.responses ++ [r] }

/-- R23: MODE is written only by RUN_START. -/
def Obligations.ModeWrittenOnlyByRunStart : Prop :=
  ∀ (i : Instr) (s t : State), exec i s = .next t →
    (∀ m, i = .runStart m → t.mode = m) ∧ ((∀ m, i ≠ .runStart m) → t.mode = s.mode)

/-! ### IMAGE_BEGIN and READ_REG -/

/-- R201, R205, R206, R208: an admitted IMAGE_BEGIN with aligned sides and a long enough bound buffer completes, and this is all it
does. -/
def Obligations.ImageBeginAccepted : Prop :=
  ∀ (s : State) (w h : Word) (name : List Byte), s.runState = .ready → w.toNat % 8 = 0 → h.toNat % 8 = 0 →
    s.imageBound = true → 4 * w.toNat * h.toNat ≤ s.imgLen →
    exec (.imageBegin w h name) s = .next
      { s with
        imgW := w, imgH := h, imgStart := s.tileIndex, curTX := 0, curTY := 0, imageCount := s.imageCount + 1
        runState := if w = 0 ∨ h = 0 then .ready else .image
        sink := s.sink ++ [.sym (sanitize name) s.tileIndex]
        responses := s.responses ++ [⟨.ok, 0⟩] }

/-- R202, R203, R249: the errors of IMAGE_BEGIN in their order of priority. -/
def Obligations.ImageBeginErrorOrder : Prop :=
  ∀ (s : State) (w h : Word) (name : List Byte),
    (s.runState ≠ .ready →
      exec (.imageBegin w h name) s = .next { s with responses := s.responses ++ [⟨.badState, 0⟩] }) ∧
    (s.runState = .ready → w.toNat % 8 ≠ 0 ∨ h.toNat % 8 ≠ 0 →
      exec (.imageBegin w h name) s = .next { s with responses := s.responses ++ [⟨.invalidDimensions, 0⟩] }) ∧
    (s.runState = .ready → w.toNat % 8 = 0 → h.toNat % 8 = 0 → s.imageBound = true →
      s.imgLen < 4 * w.toNat * h.toNat →
      exec (.imageBegin w h name) s = .next { s with responses := s.responses ++ [⟨.imageBufferShort, 0⟩] })

/-- R275: a run is refused in which the host has bound no buffer when an IMAGE_BEGIN comes to look at its length. Every other
command, in every other state and bound buffer or not, answers a next state, and no command binds a buffer. (That an IMAGE_BEGIN
rejected before it looks at the length, and a command other than IMAGE_BEGIN, are not refused without a buffer is the model's
choice, log entry 9.) -/
def Obligations.UnboundImageRefused : Prop :=
  (∀ (s : State) (w h : Word) (name : List Byte), s.runState = .ready → w.toNat % 8 = 0 → h.toNat % 8 = 0 →
    s.imageBound = false → exec (.imageBegin w h name) s = .refused .imageNotBound) ∧
  ∀ (i : Instr) (s : State),
    (∀ w h name, i = .imageBegin w h name → s.runState = .ready → w.toNat % 8 = 0 → h.toNat % 8 = 0 → s.imageBound = true) →
    ∃ t, exec i s = .next t ∧ t.imageBound = s.imageBound

/-- R207: the symbol name is the name up to its last full stop, each byte upper-cased or replaced by an underscore. -/
def Obligations.SanitizeStripsLastExtension : Prop :=
  let up : Byte → Byte := fun b =>
    if 97 ≤ b.toNat ∧ b.toNat ≤ 122 then BitVec.ofNat 8 (b.toNat - 32)
    else if 65 ≤ b.toNat ∧ b.toNat ≤ 90 ∨ 48 ≤ b.toNat ∧ b.toNat ≤ 57 then b
    else 95
  (∀ name : List Byte, 46 ∉ name → sanitize name = name.map up) ∧
  (∀ stem ext : List Byte, 46 ∉ ext → sanitize (stem ++ 46 :: ext) = stem.map up)

/-- R36: the value of every register, as the places of its bits say, with the values 0 to 4 of RUN_STATE (R22) written out; the reserved numbers are ILLEGAL_COMMAND. READ_REG completes
in every state and changes nothing but the response channel. -/
def Obligations.ReadRegValues : Prop :=
  ∀ s : State,
    readsAs s 0
      ((match s.runState with | .idle => 0 | .ready => 1 | .image => 2 | .finalized => 3 | .faulted => 4) + 8 * (if s.mode = .mode0 then 1 else 0) +
        16 * s.warnUnmappable.toNat + 256 * s.faultCode.toNat) ∧
    readsAs s 1 s.tileIndex.toNat ∧
    readsAs s 2 s.palCount.toNat ∧
    readsAs s 3 (s.pairCount.toNat + 16 * s.pairEntry0.toNat + 256 * s.pairEntry1.toNat + 65536 * s.groupPos.toNat) ∧
    readsAs s 4 s.imgW.toNat ∧ readsAs s 5 s.imgH.toNat ∧ readsAs s 6 s.imgStart.toNat ∧
    readsAs s 7 s.curTX.toNat ∧ readsAs s 8 s.curTY.toNat ∧ readsAs s 9 s.imageCount.toNat ∧
    readsAs s 10 s.faultImage.toNat ∧ readsAs s 11 s.faultTX.toNat ∧ readsAs s 12 s.faultTY.toNat ∧
    readsAs s 13 s.faultTile.toNat ∧
    (∀ i : Fin 16, readsAs s (BitVec.ofNat 8 (16 + i.val)) (if i.val < s.palCount.toNat then s.palEntry[i].toNat else 0)) ∧
    (∀ n : BitVec 8, n = 14 ∨ n = 15 ∨ 32 ≤ n.toNat →
      exec (.readReg n) s = .next { s with responses := s.responses ++ [⟨.illegalCommand, 0⟩] })

/-! ### The classifiers and the palette -/

/-- R111, R112: in Mode-4 a pixel is transparent exactly when its alpha is 0; otherwise it is the top 2 bits of each channel. -/
def Obligations.QuantizeTopTwoBits : Prop :=
  ∀ px : Pixel,
    (px.a = 0 → classifyM4 px = none) ∧
    (px.a ≠ 0 → ∃ q, classifyM4 px = some q ∧ q.extractLsb' 0 2 = px.r.extractLsb' 6 2 ∧
      q.extractLsb' 2 2 = px.g.extractLsb' 6 2 ∧ q.extractLsb' 4 2 = px.b.extractLsb' 6 2 ∧
      q.toNat = px.r.toNat / 64 + 4 * (px.g.toNat / 64) + 16 * (px.b.toNat / 64))

/-- R113: in Mode-0 an opaque pixel gets the lowest index whose reference colour is exactly its RGB; without a match it falls back
to 0 and is unmappable; a transparent pixel gets 0. -/
def Obligations.ClassifyM0LowestMatch : Prop :=
  ∀ (ref : Vector Rgb 16) (px : Pixel),
    (px.a = 0 → classifyM0 ref px = (0, false)) ∧
    (px.a ≠ 0 → ∀ i : Fin 16, ref[i] = ⟨px.r, px.g, px.b⟩ → (∀ j : Fin 16, j < i → ref[j] ≠ ⟨px.r, px.g, px.b⟩) →
      classifyM0 ref px = (BitVec.ofNat 4 i.val, false)) ∧
    (px.a ≠ 0 → (∀ i : Fin 16, ref[i] ≠ ⟨px.r, px.g, px.b⟩) → classifyM0 ref px = (0, true))

/-- R130, R131: the contract of PAL_ADD_OR_LOOKUP. -/
def Obligations.AddOrLookupContract : Prop :=
  ∀ (P : List (BitVec 6)) (q : BitVec 6), P.length ≤ 16 →
    (∀ i, P[i]? = some q → (∀ j, j < i → P[j]? ≠ some q) → addOrLookup P q = .ok (P, BitVec.ofNat 4 i)) ∧
    (q ∉ P → P.length < 16 → addOrLookup P q = .ok (P ++ [q], BitVec.ofNat 4 P.length)) ∧
    (q ∉ P → P.length = 16 → addOrLookup P q = .error .paletteOverflow)

/-- R135, R136, R137: each 2-bit channel is multiplied by 5 into its own 4 bits, and no information is lost. -/
def Obligations.Conv12ScalesEachChannel : Prop :=
  (∀ q : BitVec 6, (conv12 q).toNat =
    5 * (q.toNat % 4) + 16 * (5 * (q.toNat / 4 % 4)) + 256 * (5 * (q.toNat / 16))) ∧
  ∀ q q' : BitVec 6, conv12 q = conv12 q' → q = q'

/-- R181, R182: bit 7 - x of byte p of a row word is bit p of the palette index of column x. -/
def Obligations.RowWordBits : Prop :=
  ∀ (row : List (BitVec 4)) (i : BitVec 4) (x p : Nat), x < 8 → p < 4 → row[x]? = some i →
    (rowWord row).getLsbD (8 * p + (7 - x)) = i.getLsbD p

/-- R186: the unpacking is the inverse of R181 and R182, in both directions. -/
def Obligations.UnpackRowInverse : Prop :=
  (∀ row : List (BitVec 4), row.length = 8 → unpackRow (rowWord row) = row) ∧
  ∀ w : Word, rowWord (unpackRow w) = w

/-! ### TILE in Mode-4 -/

/-- R133, R180, R183, R210: where the tile's new colours have room and the index fits, a Mode-4 TILE completes. The palette is
extended by the new colours in order of first appearance, row by row; each pixel gets its colour's place, or 0 where it is
transparent; eight row words are emitted, and nothing else changes but the index, the cursor and the response. -/
def Obligations.Mode4TileResult : Prop :=
  ∀ (s : State) (t : List Pixel) (new : List (BitVec 6)), BlockInvariant s → s.runState = .image → s.mode = .mode4 →
    cursorTile s = t → FirstAppearances new ((t.filterMap classifyM4).filter (· ∉ s.pal)) →
    (s.pal ++ new).length ≤ 16 → s.tileIndex.toNat + 1 ≤ 0xFFFFFFFF →
    let P := s.pal ++ new
    let index : Pixel → BitVec 4 := fun px =>
      match classifyM4 px with
      | none => 0
      | some q => BitVec.ofNat 4 (P.idxOf q)
    exec .tile s = .next (State.respond (advanceCursor
      { s with
        tileIndex := s.tileIndex + 1
        palCount := BitVec.ofNat 5 P.length
        palEntry := Vector.ofFn fun i : Fin 16 => P[i.val]?.getD 0
        sink := s.sink ++ (List.range 8).map fun y => .pat32 (rowWord (((t.drop (8 * y)).take 8).map index)) }) .ok 0)

/-- R185: the round trip. After a Mode-4 TILE that does not fault, unpacking the emitted words and looking the indices up in the
palette gives the quantized colour of every opaque pixel; transparent pixels unpack to index 0; the palette grew by the new
colours in order of first appearance (R133). -/
def Obligations.Mode4TileRoundTrip : Prop :=
  ∀ (s u : State) (t : List Pixel), BlockInvariant s → s.runState = .image → s.mode = .mode4 → cursorTile s = t →
    exec .tile s = .next u → u.runState ≠ .faulted →
    (∃ new, u.pal = s.pal ++ new ∧ FirstAppearances new ((t.filterMap classifyM4).filter (· ∉ s.pal))) ∧
    ∃ ws : List Word, ws.length = 8 ∧ u.sink = s.sink ++ ws.map .pat32 ∧
      ∀ x y px w, x < 8 → y < 8 → t[8 * y + x]? = some px → ws[y]? = some w →
        (px.a ≠ 0 → u.pal[(unpackColumn w x).toNat]? = some (quantize px)) ∧
        (px.a = 0 → unpackColumn w x = 0)

/-- R185, second half: encoding again, against the final palette, a tile of opaque pixels whose colours are the decoded ones gives
the same indices and leaves the palette as it is. -/
def Obligations.ReencodingIsIdempotent : Prop :=
  ∀ (P P' : List (BitVec 6)) (t t' : List Pixel) (idx : List (BitVec 4)), P.length ≤ 16 → P.Nodup →
    (∀ px ∈ t, px.a ≠ 0) → indexTile P t = .ok (idx, P') → t'.length = t.length →
    (∀ (k : Nat) (px : Pixel) (i : BitVec 4), t'[k]? = some px → idx[k]? = some i →
      px.a ≠ 0 ∧ P'[i.toNat]? = some (quantize px)) →
    indexTile P' t' = .ok (idx, P')

/-- R131, R132, R243, R250: a Mode-4 TILE that would bring the palette above 16 colours faults with PALETTE_OVERFLOW and commits
nothing; one that would not never does. -/
def Obligations.PaletteOverflowExactly : Prop :=
  ∀ (s : State) (t : List Pixel), BlockInvariant s → s.runState = .image → s.mode = .mode4 → cursorTile s = t →
    (16 < (s.pal ++ t.filterMap classifyM4).dedup.length →
      exec .tile s = .next (faultedWith s 3 .paletteOverflow)) ∧
    ((s.pal ++ t.filterMap classifyM4).dedup.length ≤ 16 → ∀ u, exec .tile s = .next u → u.faultCode ≠ 3)

/-! ### TILE in Mode-0 -/

/-- R150, R151: the colours a Mode-0 tile requires, in order of first appearance, never index 0; a third one is the fault. -/
def Obligations.TestPairContract : Prop :=
  ∀ (ref : Vector Rgb 16) (t : List Pixel),
    (∀ test, testPair ref t = .ok test →
      test.length ≤ 2 ∧ FirstAppearances test (tileColours ref t)) ∧
    (∀ f, testPair ref t = .error f ↔ f = .tooManyColoursInTile ∧ 2 < (tileColours ref t).dedup.length)

/-- R152: the case table of CT_COMPATIBLE. -/
def Obligations.CompatibleCases : Prop :=
  (∀ test : List (BitVec 4), test.length ≤ 2 → compatible [] test = true) ∧
  (∀ a : BitVec 4, compatible [a] [] = true) ∧
  (∀ a b : BitVec 4, compatible [a] [b] = true) ∧
  (∀ a b : BitVec 4, a ≠ b → compatible [a] [a, b] = true ∧ compatible [a] [b, a] = true) ∧
  (∀ a b c : BitVec 4, b ≠ c → a ≠ b → a ≠ c → compatible [a] [b, c] = false) ∧
  (∀ (a b : BitVec 4) (test : List (BitVec 4)), a ≠ b → (∀ c ∈ test, c = a ∨ c = b) → compatible [a, b] test = true) ∧
  (∀ (a b c : BitVec 4) (test : List (BitVec 4)), a ≠ b → c ∈ test → c ≠ a → c ≠ b → compatible [a, b] test = false)

/-- R155: colours not already present are appended, in list order, and existing ones keep their bit positions. -/
def Obligations.MergeKeepsBitPositions : Prop :=
  ∀ pair test : List (BitVec 4), test.Nodup →
    merge pair test = pair ++ test.filter (· ∉ pair) ∧
    (pair.Nodup → compatible pair test = true → (merge pair test).length ≤ 2)

/-- R156: the low nibble is the background colour or 0, the high nibble the foreground colour or 0. -/
def Obligations.CtByteNibbles : Prop :=
  ∀ pair : List (BitVec 4), pair.length ≤ 2 →
    (ctByte pair).extractLsb' 0 4 = pair[0]?.getD 0 ∧ (ctByte pair).extractLsb' 4 4 = pair[1]?.getD 0

/-- R191: bit 7 - x of a Mode-0 row byte is set exactly where the pair has two colours and column x has the second. -/
def Obligations.RowByteForeground : Prop :=
  ∀ (ref : Vector Rgb 16) (pair : List (BitVec 4)) (row : List Pixel) (px : Pixel) (x : Nat),
    x < 8 → row[x]? = some px →
    ((rowByte ref pair row).getLsbD (7 - x) = true ↔ pair.length = 2 ∧ pair[1]? = some (classifyM0 ref px).1)

/-- R153 to R157, R190, R192, R193, R210: a Mode-0 TILE of at most two colours whose index fits completes, and this is all it does:
the warning where some pixel is unmappable, the pad tiles and the closed group's byte where the tile cannot join, its rows under the merged pair, and the
group's byte where it is the eighth tile. -/
def Obligations.Mode0TileResult : Prop :=
  ∀ (s : State) (t : List Pixel) (test : List (BitVec 4)), BlockInvariant s → s.runState = .image → s.mode = .mode0 →
    cursorTile s = t → testPair s.refPalette t = .ok test →
    s.tileIndex.toNat + padsNeeded s test + 1 ≤ 0xFFFFFFFF →
    let joins : Bool := (s.pair ++ test).dedup.length ≤ 2
    let before := if joins then s.pair else []
    let pair := before ++ test.filter (· ∉ before)
    let position := (if joins then s.groupPos.toNat else 0) + 1
    let warning : Bool := decide (∃ px ∈ t, (classifyM0 s.refPalette px).2 = true)
    exec .tile s = .next (State.respond (advanceCursor
      { s with
        tileIndex := s.tileIndex + BitVec.ofNat 32 (padsNeeded s test + 1)
        warnUnmappable := s.warnUnmappable || warning
        pairCount := if position = 8 then 0 else BitVec.ofNat 2 pair.length
        pairEntry0 := if position = 8 then 0 else pair[0]?.getD 0
        pairEntry1 := if position = 8 then 0 else pair[1]?.getD 0
        groupPos := if position = 8 then 0 else BitVec.ofNat 3 position
        sink := s.sink ++ (if warning && !s.warnUnmappable then [.diag 4] else []) ++
          (if joins then [] else List.replicate (8 * padsNeeded s test) (.pat8 0) ++ [.ctb (ctByte s.pair)]) ++
          ((List.range 8).map fun y => .pat8 (rowByte s.refPalette pair ((t.drop (8 * y)).take 8))) ++
          (if position = 8 then [.ctb (ctByte pair)] else []) }) .ok 0)

/-- R184, R194: a fully transparent tile gives eight zero rows in both formats and changes neither the palette nor, until the group
closes, the pair. -/
def Obligations.TransparentTileIsNeutral : Prop :=
  ∀ (s : State) (t : List Pixel), BlockInvariant s → s.runState = .image → cursorTile s = t →
    (∀ px ∈ t, px.a = 0) → s.tileIndex.toNat + 1 ≤ 0xFFFFFFFF →
    (s.mode = .mode4 → exec .tile s = .next (State.respond (advanceCursor
      { s with tileIndex := s.tileIndex + 1, sink := s.sink ++ List.replicate 8 (.pat32 0) }) .ok 0)) ∧
    (s.mode = .mode0 → ∃ u, exec .tile s = .next u ∧ u.tileIndex = s.tileIndex + 1 ∧ u.groupPos = s.groupPos + 1 ∧
      u.warnUnmappable = s.warnUnmappable ∧ u.pal = s.pal ∧ u.pair = (if s.groupPos = 7 then [] else s.pair) ∧
      u.sink = s.sink ++ List.replicate 8 (.pat8 0) ++ (if s.groupPos = 7 then [.ctb (ctByte s.pair)] else []))

/-- R151, R242, R250: a Mode-0 TILE with a third distinct colour faults with TOO_MANY_COLOURS_IN_TILE and commits nothing. -/
def Obligations.ThirdColourFaults : Prop :=
  ∀ (s : State) (t : List Pixel), s.runState = .image → s.mode = .mode0 → cursorTile s = t →
    2 < (tileColours s.refPalette t).dedup.length →
    exec .tile s = .next (faultedWith s 2 .tooManyColoursInTile)

/-! ### Faults -/

/-- R212, R247: a TILE whose completion would need an index above 0xFFFFFFFF faults with TILE_INDEX_OVERFLOW and commits nothing,
pad tiles counted; the encoder's own fault comes first (R249), so the encoder is taken to succeed. -/
def Obligations.TileIndexOverflowFaults : Prop :=
  ∀ (s : State) (t : List Pixel), s.runState = .image → cursorTile s = t →
    (∀ idx P, s.mode = .mode4 → indexTile s.pal t = .ok (idx, P) → 0xFFFFFFFF < s.tileIndex.toNat + 1 →
      exec .tile s = .next (faultedWith s 7 .tileIndexOverflow)) ∧
    (∀ test, s.mode = .mode0 → testPair s.refPalette t = .ok test →
      0xFFFFFFFF < s.tileIndex.toNat + padsNeeded s test + 1 →
      exec .tile s = .next (faultedWith s 7 .tileIndexOverflow))

/-- R251: faults are precise. Only TILE enters FAULTED, and the state seen afterwards is the state before it, plus the fault
registers, RUN_STATE and the response. -/
def Obligations.FaultsArePrecise : Prop :=
  ∀ (i : Instr) (s t : State), exec i s = .next t → s.runState ≠ .faulted → t.runState = .faulted →
    i = .tile ∧ s.runState = .image ∧
    (t = faultedWith s 2 .tooManyColoursInTile ∨ t = faultedWith s 3 .paletteOverflow ∨
      t = faultedWith s 7 .tileIndexOverflow)

/-- R253: FAULTED is left only by RUN_START and by a power-on reset; READ_REG still works and changes nothing. -/
def Obligations.FaultedIsSticky : Prop :=
  ∀ s : State, s.runState = .faulted →
    (∀ i t, exec i s = .next t → (∀ m, i ≠ .runStart m) → t = { s with responses := t.responses }) ∧
    (∀ i, (∃ w h name, i = .imageBegin w h name) ∨ i = .tile ∨ i = .finalize →
      exec i s = .next { s with responses := s.responses ++ [⟨.badState, 0⟩] }) ∧
    (∀ n v, regValue s n = some v → exec (.readReg n) s = .next { s with responses := s.responses ++ [⟨.ok, v⟩] }) ∧
    (∀ m, ∃ t, exec (.runStart m) s = .next t ∧ AtResetValues .ready m t) ∧
    (s.input = [.powerOn] → ∃ t, step s = .next t ∧ AtResetValues .idle .mode4 t)

/-! ### FINALIZE -/

/-- R138, R215: a Mode-4 FINALIZE completes: it emits the palette's entries, then sixteen converted entries, and freezes the run.
(That the unused converted entries are 0 is the spec's own decision D21, log entry 22.) -/
def Obligations.FinalizeEmitsPalette : Prop :=
  ∀ s : State, BlockInvariant s → s.runState = .ready → s.mode = .mode4 →
    exec .finalize s = .next
      { s with
        runState := .finalized
        responses := s.responses ++ [⟨.ok, 0⟩]
        sink := s.sink ++ ((List.range s.palCount.toNat).map fun i => .pal6 (s.palEntry[i]?.getD 0)) ++
          ((List.range 16).map fun i =>
            .pal12 (if i < s.palCount.toNat then conv12 (s.palEntry[i]?.getD 0) else 0)) }

/-- R158, R215: a Mode-0 FINALIZE completes: it emits the byte of a group left open, no pad tile, and freezes the run. -/
def Obligations.FinalizeFlushesOpenGroup : Prop :=
  ∀ s : State, s.runState = .ready → s.mode = .mode0 →
    exec .finalize s = .next
      { s with
        runState := .finalized
        responses := s.responses ++ [⟨.ok, 0⟩]
        sink := s.sink ++ (if s.groupPos = 0 then [] else [.ctb (ctByte ([s.pairEntry0, s.pairEntry1].take s.pairCount.toNat))]) }

/-! ### Image memory -/

/-- R63, R64, R65: the tile at the cursor is 64 pixels; pixel (x, y) is item 8 * y + x, and its channels are the four bytes at
offset 4 * (Y * W + X) of image position (8 * tx + x, 8 * ty + y), in the order r, g, b, a. -/
def Obligations.TilePixelLayout : Prop :=
  ∀ s : State,
    (cursorTile s).length = 64 ∧
    ∀ x y, x < 8 → y < 8 →
      let at_ := 4 * ((8 * s.curTY.toNat + y) * s.imgW.toNat + (8 * s.curTX.toNat + x))
      (cursorTile s)[8 * y + x]? =
        some ⟨imageByte s at_, imageByte s (at_ + 1), imageByte s (at_ + 2), imageByte s (at_ + 3)⟩

/-- R61: the buffer the host binds is what IMGMEM reads as, below its length, and the memory keeps its canonical form. (What its
list reads as beyond the buffer is the model's representation, log entry 6.) -/
def Obligations.BoundBufferReadsBack : Prop :=
  ∀ (s : State) (bytes : List Byte),
    (s.bindImage bytes).imgLen = bytes.length ∧ (s.bindImage bytes).imageBound = true ∧
    (∀ a b, bytes[a]? = some b → imageByte (s.bindImage bytes) a = b) ∧
    (∀ a, readByte (s.bindImage bytes).imgMem a = bytes[a]?.getD 0) ∧
    Memory.wf (s.bindImage bytes).imgMem = true

/-- R60, R62: no command writes the image memory, or the buffer's length, the reference palette or the channel. -/
def Obligations.ImageMemoryNeverWritten : Prop :=
  ∀ (i : Instr) (s t : State), exec i s = .next t →
    (∀ a, imageByte t a = imageByte s a) ∧ t.imgMem = s.imgMem ∧ t.imgLen = s.imgLen ∧
    t.imageBound = s.imageBound ∧ t.bindings = s.bindings ∧
    t.refPalette = s.refPalette ∧ t.input = s.input

/-- R61: the block reads IMGMEM only during TILE commands. -/
def Obligations.OnlyTileReadsImageMemory : Prop :=
  ∀ (i : Instr) (s : State) (m : List Host.Cell), i ≠ .tile →
    exec i { s with imgMem := m } = mapNext (fun t => { t with imgMem := m }) (exec i s)

/-- R67: a TILE reads the 64 pixels of its tile, 256 bytes, and no other byte: two image memories that agree on those bytes give
the same outcome. -/
def Obligations.TileReadsOnlyItsPixels : Prop :=
  ∀ (s : State) (m : List Host.Cell),
    (∀ x y c, x < 8 → y < 8 → c < 4 →
      let a := 4 * ((8 * s.curTY.toNat + y) * s.imgW.toNat + (8 * s.curTX.toNat + x)) + c
      a < s.imgLen → readByte m a = readByte s.imgMem a) →
    exec .tile { s with imgMem := m } = mapNext (fun t => { t with imgMem := m }) (exec .tile s)

/-- R62, R203: where the bound buffer is as long as the active image, every byte TILE reads lies within it. -/
def Obligations.TileStaysWithinBuffer : Prop :=
  ∀ s : State, BlockInvariant s → s.runState = .image → 4 * s.imgW.toNat * s.imgH.toNat ≤ s.imgLen →
    (∃ t, exec .tile s = .next t) ∧
    ∀ x y c, x < 8 → y < 8 → c < 4 →
      let a := 4 * ((8 * s.curTY.toNat + y) * s.imgW.toNat + (8 * s.curTX.toNat + x)) + c
      a < s.imgLen ∧ imageByte s a = readByte s.imgMem a

/-- R69, R275: no fault arises from an image-memory access. TILE answers a next state in every state, and a buffer bound between
the TILE commands of an image, a shorter one too, is what the next TILE reads. (What a byte beyond it reads as is a free value,
log entry 7.) -/
def Obligations.TileReadsWhateverIsBound : Prop :=
  (∀ s : State, ∃ t, exec .tile s = .next t) ∧
  ∀ (s : State) (bytes : List Byte) (rest : List HostInput),
    s.input = .bindImage bytes :: .word 0x03000000 :: .awaitResponse :: rest →
    step s = exec .tile { s.bindImage bytes with input := rest } ∧
    ∀ a, imageByte (s.bindImage bytes) a = bytes[a]?.getD (Config.byteBeyondBuffer (s.bindings + 1) a)

/-! ### Runs -/

/-- R76: the sink is append-only and never read, and responses are never taken back: records already in the sink change nothing
but what they themselves are. -/
def Obligations.SinkAppendOnlyNeverRead : Prop :=
  (∀ (s : State) (pre : List Record),
    step { s with sink := pre ++ s.sink } = mapNext (fun t => { t with sink := pre ++ t.sink }) (step s)) ∧
  ∀ s t : State, step s = .next t → s.sink <+: t.sink ∧ s.responses <+: t.responses

/-- R204, R211, R213: a TILE that does not fault moves the cursor to the next tile in row-major order, and the image is complete
exactly when all its tiles are encoded, with the cursor at (0, H/8). Moving the cursor changes nothing but
CUR_TX, CUR_TY and RUN_STATE. -/
def Obligations.CursorIsRowMajor : Prop :=
  (∀ s : State, advanceCursor s =
    { s with
      curTX := (advanceCursor s).curTX, curTY := (advanceCursor s).curTY, runState := (advanceCursor s).runState }) ∧
  ∀ s t : State, BlockInvariant s → s.runState = .image → exec .tile s = .next t → t.runState ≠ .faulted →
    t.imgW = s.imgW ∧ t.imgH = s.imgH ∧
    cursorOrdinal t = cursorOrdinal s + 1 ∧ t.curTX.toNat < t.imgW.toNat / 8 ∧
    (t.runState = .ready ↔ cursorOrdinal t = s.imgW.toNat / 8 * (s.imgH.toNat / 8)) ∧
    (t.runState = .image ↔ cursorOrdinal t < s.imgW.toNat / 8 * (s.imgH.toNat / 8)) ∧
    (t.runState = .ready → t.curTX = 0 ∧ t.curTY.toNat = s.imgH.toNat / 8)

/-- R24, R28, R133: within a run the palette is only ever extended and the tile index never falls. -/
def Obligations.PaletteAndIndexNeverShrink : Prop :=
  ∀ (i : Instr) (s t : State), BlockInvariant s → (∀ m, i ≠ .runStart m) → exec i s = .next t →
    s.pal <+: t.pal ∧ s.tileIndex.toNat ≤ t.tileIndex.toNat

/-- R279: a TILE emits exactly 8 records in Mode-4 and 8 to 66 in Mode-0, unless it faults and emits none. -/
def Obligations.RecordsPerTile : Prop :=
  ∀ s t : State, BlockInvariant s → s.runState = .image → exec .tile s = .next t →
    (t.runState = .faulted → t.sink = s.sink) ∧
    (t.runState ≠ .faulted → s.mode = .mode4 → t.sink.length = s.sink.length + 8) ∧
    (t.runState ≠ .faulted → s.mode = .mode0 →
      s.sink.length + 8 ≤ t.sink.length ∧ t.sink.length ≤ s.sink.length + 66)

/-- R22, R29, R30, R32, R33, R35, R61: the registers' invariants hold after power-on reset. -/
def Obligations.InvariantAtReset : Prop := BlockInvariant State.reset

/-- R22, R29, R30, R32, R33, R35, R61: every step keeps the registers' invariants. -/
def Obligations.InvariantKeptByStep : Prop :=
  ∀ s t : State, BlockInvariant s → step s = .next t → BlockInvariant t

/-- R159, R193, R222: the ledger of a run starts with RUN_START and is kept by every other command: eight pattern rows a tile, one
colour-table byte a group, one symbol an image, one diagnostic a run. -/
def Obligations.RunLedgerKept : Prop :=
  (∀ (s t : State) (m : Mode), exec (.runStart m) s = .next t → RunLedger s.sink.length t) ∧
  ∀ (base : Nat) (i : Instr) (s t : State), BlockInvariant s → RunLedger base s → (∀ m, i ≠ .runStart m) →
    exec i s = .next t → RunLedger base t

/-- R159, R222: at the end of a Mode-0 run the colour-table stream has ceil(TILE_INDEX / 8) bytes, and the run's output is valid.
(The second clause rests on log entry 23, DEDUCED: R254 and R278 say that an output is valid only if the run is FINALIZED with
FAULT_CODE 0; that it then is valid is the model's reading.) -/
def Obligations.ColourTableLength : Prop :=
  ∀ (base : Nat) (s t : State), BlockInvariant s → RunLedger base s → s.mode = .mode0 → s.runState = .ready →
    exec .finalize s = .next t →
    countTag 3 (t.sink.drop base) = (t.tileIndex.toNat + 7) / 8 ∧ outputValid t = true

/-- R98, R204, R272: from READY, with a bound buffer as long as the image, ENCODE_IMAGE runs to its end; unless a tile faults, every
command answers OK and the image is complete. -/
def Obligations.EncodeImageRunsToTheEnd : Prop :=
  ∀ (s : State) (w h : Word) (name : List Byte) (prog : List Instr), BlockInvariant s → s.runState = .ready →
    s.imageBound = true → 4 * w.toNat * h.toNat ≤ s.imgLen → expandEncodeImage w h name = some prog →
    prog.length = 1 + w.toNat / 8 * (h.toNat / 8) ∧
    ∃ t, execAll prog s = .next t ∧
      (t.runState = .faulted ∨
        t.runState = .ready ∧ t.responses = s.responses ++ List.replicate prog.length ⟨.ok, 0⟩)
end

