-- ==== Sys2Proof/Laws/State.lean ====
section
/-! SUPPORT. One lemma for each field of the state and each named update of it, so that no proof unfolds a record update. -/

namespace Sys2Proof.Machine

variable (s : State)

/-! ### setInput -/

@[simp] theorem State.setInput_runState (inp : List HostInput) : (s.setInput inp).runState = s.runState := rfl
@[simp] theorem State.setInput_mode (inp : List HostInput) : (s.setInput inp).mode = s.mode := rfl
@[simp] theorem State.setInput_tileIndex (inp : List HostInput) : (s.setInput inp).tileIndex = s.tileIndex := rfl
@[simp] theorem State.setInput_imageCount (inp : List HostInput) : (s.setInput inp).imageCount = s.imageCount := rfl
@[simp] theorem State.setInput_imgW (inp : List HostInput) : (s.setInput inp).imgW = s.imgW := rfl
@[simp] theorem State.setInput_imgH (inp : List HostInput) : (s.setInput inp).imgH = s.imgH := rfl
@[simp] theorem State.setInput_imgStart (inp : List HostInput) : (s.setInput inp).imgStart = s.imgStart := rfl
@[simp] theorem State.setInput_curTX (inp : List HostInput) : (s.setInput inp).curTX = s.curTX := rfl
@[simp] theorem State.setInput_curTY (inp : List HostInput) : (s.setInput inp).curTY = s.curTY := rfl
@[simp] theorem State.setInput_palCount (inp : List HostInput) : (s.setInput inp).palCount = s.palCount := rfl
@[simp] theorem State.setInput_palEntry (inp : List HostInput) : (s.setInput inp).palEntry = s.palEntry := rfl
@[simp] theorem State.setInput_pairCount (inp : List HostInput) : (s.setInput inp).pairCount = s.pairCount := rfl
@[simp] theorem State.setInput_pairEntry0 (inp : List HostInput) : (s.setInput inp).pairEntry0 = s.pairEntry0 := rfl
@[simp] theorem State.setInput_pairEntry1 (inp : List HostInput) : (s.setInput inp).pairEntry1 = s.pairEntry1 := rfl
@[simp] theorem State.setInput_groupPos (inp : List HostInput) : (s.setInput inp).groupPos = s.groupPos := rfl
@[simp] theorem State.setInput_warnUnmappable (inp : List HostInput) : (s.setInput inp).warnUnmappable = s.warnUnmappable := rfl
@[simp] theorem State.setInput_faultCode (inp : List HostInput) : (s.setInput inp).faultCode = s.faultCode := rfl
@[simp] theorem State.setInput_faultImage (inp : List HostInput) : (s.setInput inp).faultImage = s.faultImage := rfl
@[simp] theorem State.setInput_faultTX (inp : List HostInput) : (s.setInput inp).faultTX = s.faultTX := rfl
@[simp] theorem State.setInput_faultTY (inp : List HostInput) : (s.setInput inp).faultTY = s.faultTY := rfl
@[simp] theorem State.setInput_faultTile (inp : List HostInput) : (s.setInput inp).faultTile = s.faultTile := rfl
@[simp] theorem State.setInput_refPalette (inp : List HostInput) : (s.setInput inp).refPalette = s.refPalette := rfl
@[simp] theorem State.setInput_imgMem (inp : List HostInput) : (s.setInput inp).imgMem = s.imgMem := rfl
@[simp] theorem State.setInput_imgLen (inp : List HostInput) : (s.setInput inp).imgLen = s.imgLen := rfl
@[simp] theorem State.setInput_imageBound (inp : List HostInput) : (s.setInput inp).imageBound = s.imageBound := rfl
@[simp] theorem State.setInput_bindings (inp : List HostInput) : (s.setInput inp).bindings = s.bindings := rfl
@[simp] theorem State.setInput_input (inp : List HostInput) : (s.setInput inp).input = inp := rfl
@[simp] theorem State.setInput_responses (inp : List HostInput) : (s.setInput inp).responses = s.responses := rfl
@[simp] theorem State.setInput_sink (inp : List HostInput) : (s.setInput inp).sink = s.sink := rfl

/-! ### emitAll -/

@[simp] theorem State.emitAll_runState (rs : List Record) : (s.emitAll rs).runState = s.runState := rfl
@[simp] theorem State.emitAll_mode (rs : List Record) : (s.emitAll rs).mode = s.mode := rfl
@[simp] theorem State.emitAll_tileIndex (rs : List Record) : (s.emitAll rs).tileIndex = s.tileIndex := rfl
@[simp] theorem State.emitAll_imageCount (rs : List Record) : (s.emitAll rs).imageCount = s.imageCount := rfl
@[simp] theorem State.emitAll_imgW (rs : List Record) : (s.emitAll rs).imgW = s.imgW := rfl
@[simp] theorem State.emitAll_imgH (rs : List Record) : (s.emitAll rs).imgH = s.imgH := rfl
@[simp] theorem State.emitAll_imgStart (rs : List Record) : (s.emitAll rs).imgStart = s.imgStart := rfl
@[simp] theorem State.emitAll_curTX (rs : List Record) : (s.emitAll rs).curTX = s.curTX := rfl
@[simp] theorem State.emitAll_curTY (rs : List Record) : (s.emitAll rs).curTY = s.curTY := rfl
@[simp] theorem State.emitAll_palCount (rs : List Record) : (s.emitAll rs).palCount = s.palCount := rfl
@[simp] theorem State.emitAll_palEntry (rs : List Record) : (s.emitAll rs).palEntry = s.palEntry := rfl
@[simp] theorem State.emitAll_pairCount (rs : List Record) : (s.emitAll rs).pairCount = s.pairCount := rfl
@[simp] theorem State.emitAll_pairEntry0 (rs : List Record) : (s.emitAll rs).pairEntry0 = s.pairEntry0 := rfl
@[simp] theorem State.emitAll_pairEntry1 (rs : List Record) : (s.emitAll rs).pairEntry1 = s.pairEntry1 := rfl
@[simp] theorem State.emitAll_groupPos (rs : List Record) : (s.emitAll rs).groupPos = s.groupPos := rfl
@[simp] theorem State.emitAll_warnUnmappable (rs : List Record) : (s.emitAll rs).warnUnmappable = s.warnUnmappable := rfl
@[simp] theorem State.emitAll_faultCode (rs : List Record) : (s.emitAll rs).faultCode = s.faultCode := rfl
@[simp] theorem State.emitAll_faultImage (rs : List Record) : (s.emitAll rs).faultImage = s.faultImage := rfl
@[simp] theorem State.emitAll_faultTX (rs : List Record) : (s.emitAll rs).faultTX = s.faultTX := rfl
@[simp] theorem State.emitAll_faultTY (rs : List Record) : (s.emitAll rs).faultTY = s.faultTY := rfl
@[simp] theorem State.emitAll_faultTile (rs : List Record) : (s.emitAll rs).faultTile = s.faultTile := rfl
@[simp] theorem State.emitAll_refPalette (rs : List Record) : (s.emitAll rs).refPalette = s.refPalette := rfl
@[simp] theorem State.emitAll_imgMem (rs : List Record) : (s.emitAll rs).imgMem = s.imgMem := rfl
@[simp] theorem State.emitAll_imgLen (rs : List Record) : (s.emitAll rs).imgLen = s.imgLen := rfl
@[simp] theorem State.emitAll_imageBound (rs : List Record) : (s.emitAll rs).imageBound = s.imageBound := rfl
@[simp] theorem State.emitAll_bindings (rs : List Record) : (s.emitAll rs).bindings = s.bindings := rfl
@[simp] theorem State.emitAll_input (rs : List Record) : (s.emitAll rs).input = s.input := rfl
@[simp] theorem State.emitAll_responses (rs : List Record) : (s.emitAll rs).responses = s.responses := rfl
@[simp] theorem State.emitAll_sink (rs : List Record) : (s.emitAll rs).sink = s.sink ++ rs := rfl

/-! ### emit -/

@[simp] theorem State.emit_runState (r : Record) : (s.emit r).runState = s.runState := rfl
@[simp] theorem State.emit_mode (r : Record) : (s.emit r).mode = s.mode := rfl
@[simp] theorem State.emit_tileIndex (r : Record) : (s.emit r).tileIndex = s.tileIndex := rfl
@[simp] theorem State.emit_imageCount (r : Record) : (s.emit r).imageCount = s.imageCount := rfl
@[simp] theorem State.emit_imgW (r : Record) : (s.emit r).imgW = s.imgW := rfl
@[simp] theorem State.emit_imgH (r : Record) : (s.emit r).imgH = s.imgH := rfl
@[simp] theorem State.emit_imgStart (r : Record) : (s.emit r).imgStart = s.imgStart := rfl
@[simp] theorem State.emit_curTX (r : Record) : (s.emit r).curTX = s.curTX := rfl
@[simp] theorem State.emit_curTY (r : Record) : (s.emit r).curTY = s.curTY := rfl
@[simp] theorem State.emit_palCount (r : Record) : (s.emit r).palCount = s.palCount := rfl
@[simp] theorem State.emit_palEntry (r : Record) : (s.emit r).palEntry = s.palEntry := rfl
@[simp] theorem State.emit_pairCount (r : Record) : (s.emit r).pairCount = s.pairCount := rfl
@[simp] theorem State.emit_pairEntry0 (r : Record) : (s.emit r).pairEntry0 = s.pairEntry0 := rfl
@[simp] theorem State.emit_pairEntry1 (r : Record) : (s.emit r).pairEntry1 = s.pairEntry1 := rfl
@[simp] theorem State.emit_groupPos (r : Record) : (s.emit r).groupPos = s.groupPos := rfl
@[simp] theorem State.emit_warnUnmappable (r : Record) : (s.emit r).warnUnmappable = s.warnUnmappable := rfl
@[simp] theorem State.emit_faultCode (r : Record) : (s.emit r).faultCode = s.faultCode := rfl
@[simp] theorem State.emit_faultImage (r : Record) : (s.emit r).faultImage = s.faultImage := rfl
@[simp] theorem State.emit_faultTX (r : Record) : (s.emit r).faultTX = s.faultTX := rfl
@[simp] theorem State.emit_faultTY (r : Record) : (s.emit r).faultTY = s.faultTY := rfl
@[simp] theorem State.emit_faultTile (r : Record) : (s.emit r).faultTile = s.faultTile := rfl
@[simp] theorem State.emit_refPalette (r : Record) : (s.emit r).refPalette = s.refPalette := rfl
@[simp] theorem State.emit_imgMem (r : Record) : (s.emit r).imgMem = s.imgMem := rfl
@[simp] theorem State.emit_imgLen (r : Record) : (s.emit r).imgLen = s.imgLen := rfl
@[simp] theorem State.emit_imageBound (r : Record) : (s.emit r).imageBound = s.imageBound := rfl
@[simp] theorem State.emit_bindings (r : Record) : (s.emit r).bindings = s.bindings := rfl
@[simp] theorem State.emit_input (r : Record) : (s.emit r).input = s.input := rfl
@[simp] theorem State.emit_responses (r : Record) : (s.emit r).responses = s.responses := rfl
@[simp] theorem State.emit_sink (r : Record) : (s.emit r).sink = s.sink ++ [r] := rfl

/-! ### respond -/

@[simp] theorem State.respond_runState (st : Status) (v : Word) : (s.respond st v).runState = s.runState := rfl
@[simp] theorem State.respond_mode (st : Status) (v : Word) : (s.respond st v).mode = s.mode := rfl
@[simp] theorem State.respond_tileIndex (st : Status) (v : Word) : (s.respond st v).tileIndex = s.tileIndex := rfl
@[simp] theorem State.respond_imageCount (st : Status) (v : Word) : (s.respond st v).imageCount = s.imageCount := rfl
@[simp] theorem State.respond_imgW (st : Status) (v : Word) : (s.respond st v).imgW = s.imgW := rfl
@[simp] theorem State.respond_imgH (st : Status) (v : Word) : (s.respond st v).imgH = s.imgH := rfl
@[simp] theorem State.respond_imgStart (st : Status) (v : Word) : (s.respond st v).imgStart = s.imgStart := rfl
@[simp] theorem State.respond_curTX (st : Status) (v : Word) : (s.respond st v).curTX = s.curTX := rfl
@[simp] theorem State.respond_curTY (st : Status) (v : Word) : (s.respond st v).curTY = s.curTY := rfl
@[simp] theorem State.respond_palCount (st : Status) (v : Word) : (s.respond st v).palCount = s.palCount := rfl
@[simp] theorem State.respond_palEntry (st : Status) (v : Word) : (s.respond st v).palEntry = s.palEntry := rfl
@[simp] theorem State.respond_pairCount (st : Status) (v : Word) : (s.respond st v).pairCount = s.pairCount := rfl
@[simp] theorem State.respond_pairEntry0 (st : Status) (v : Word) : (s.respond st v).pairEntry0 = s.pairEntry0 := rfl
@[simp] theorem State.respond_pairEntry1 (st : Status) (v : Word) : (s.respond st v).pairEntry1 = s.pairEntry1 := rfl
@[simp] theorem State.respond_groupPos (st : Status) (v : Word) : (s.respond st v).groupPos = s.groupPos := rfl
@[simp] theorem State.respond_warnUnmappable (st : Status) (v : Word) : (s.respond st v).warnUnmappable = s.warnUnmappable := rfl
@[simp] theorem State.respond_faultCode (st : Status) (v : Word) : (s.respond st v).faultCode = s.faultCode := rfl
@[simp] theorem State.respond_faultImage (st : Status) (v : Word) : (s.respond st v).faultImage = s.faultImage := rfl
@[simp] theorem State.respond_faultTX (st : Status) (v : Word) : (s.respond st v).faultTX = s.faultTX := rfl
@[simp] theorem State.respond_faultTY (st : Status) (v : Word) : (s.respond st v).faultTY = s.faultTY := rfl
@[simp] theorem State.respond_faultTile (st : Status) (v : Word) : (s.respond st v).faultTile = s.faultTile := rfl
@[simp] theorem State.respond_refPalette (st : Status) (v : Word) : (s.respond st v).refPalette = s.refPalette := rfl
@[simp] theorem State.respond_imgMem (st : Status) (v : Word) : (s.respond st v).imgMem = s.imgMem := rfl
@[simp] theorem State.respond_imgLen (st : Status) (v : Word) : (s.respond st v).imgLen = s.imgLen := rfl
@[simp] theorem State.respond_imageBound (st : Status) (v : Word) : (s.respond st v).imageBound = s.imageBound := rfl
@[simp] theorem State.respond_bindings (st : Status) (v : Word) : (s.respond st v).bindings = s.bindings := rfl
@[simp] theorem State.respond_input (st : Status) (v : Word) : (s.respond st v).input = s.input := rfl
@[simp] theorem State.respond_responses (st : Status) (v : Word) : (s.respond st v).responses = s.responses ++ [⟨st, v⟩] := rfl
@[simp] theorem State.respond_sink (st : Status) (v : Word) : (s.respond st v).sink = s.sink := rfl

/-! ### reject -/

@[simp] theorem State.reject_runState (st : Status) : (s.reject st).runState = s.runState := rfl
@[simp] theorem State.reject_mode (st : Status) : (s.reject st).mode = s.mode := rfl
@[simp] theorem State.reject_tileIndex (st : Status) : (s.reject st).tileIndex = s.tileIndex := rfl
@[simp] theorem State.reject_imageCount (st : Status) : (s.reject st).imageCount = s.imageCount := rfl
@[simp] theorem State.reject_imgW (st : Status) : (s.reject st).imgW = s.imgW := rfl
@[simp] theorem State.reject_imgH (st : Status) : (s.reject st).imgH = s.imgH := rfl
@[simp] theorem State.reject_imgStart (st : Status) : (s.reject st).imgStart = s.imgStart := rfl
@[simp] theorem State.reject_curTX (st : Status) : (s.reject st).curTX = s.curTX := rfl
@[simp] theorem State.reject_curTY (st : Status) : (s.reject st).curTY = s.curTY := rfl
@[simp] theorem State.reject_palCount (st : Status) : (s.reject st).palCount = s.palCount := rfl
@[simp] theorem State.reject_palEntry (st : Status) : (s.reject st).palEntry = s.palEntry := rfl
@[simp] theorem State.reject_pairCount (st : Status) : (s.reject st).pairCount = s.pairCount := rfl
@[simp] theorem State.reject_pairEntry0 (st : Status) : (s.reject st).pairEntry0 = s.pairEntry0 := rfl
@[simp] theorem State.reject_pairEntry1 (st : Status) : (s.reject st).pairEntry1 = s.pairEntry1 := rfl
@[simp] theorem State.reject_groupPos (st : Status) : (s.reject st).groupPos = s.groupPos := rfl
@[simp] theorem State.reject_warnUnmappable (st : Status) : (s.reject st).warnUnmappable = s.warnUnmappable := rfl
@[simp] theorem State.reject_faultCode (st : Status) : (s.reject st).faultCode = s.faultCode := rfl
@[simp] theorem State.reject_faultImage (st : Status) : (s.reject st).faultImage = s.faultImage := rfl
@[simp] theorem State.reject_faultTX (st : Status) : (s.reject st).faultTX = s.faultTX := rfl
@[simp] theorem State.reject_faultTY (st : Status) : (s.reject st).faultTY = s.faultTY := rfl
@[simp] theorem State.reject_faultTile (st : Status) : (s.reject st).faultTile = s.faultTile := rfl
@[simp] theorem State.reject_refPalette (st : Status) : (s.reject st).refPalette = s.refPalette := rfl
@[simp] theorem State.reject_imgMem (st : Status) : (s.reject st).imgMem = s.imgMem := rfl
@[simp] theorem State.reject_imgLen (st : Status) : (s.reject st).imgLen = s.imgLen := rfl
@[simp] theorem State.reject_imageBound (st : Status) : (s.reject st).imageBound = s.imageBound := rfl
@[simp] theorem State.reject_bindings (st : Status) : (s.reject st).bindings = s.bindings := rfl
@[simp] theorem State.reject_input (st : Status) : (s.reject st).input = s.input := rfl
@[simp] theorem State.reject_responses (st : Status) : (s.reject st).responses = s.responses ++ [⟨st, 0⟩] := rfl
@[simp] theorem State.reject_sink (st : Status) : (s.reject st).sink = s.sink := rfl

/-! ### bindImage -/

@[simp] theorem State.bindImage_runState (bytes : List Byte) : (s.bindImage bytes).runState = s.runState := rfl
@[simp] theorem State.bindImage_mode (bytes : List Byte) : (s.bindImage bytes).mode = s.mode := rfl
@[simp] theorem State.bindImage_tileIndex (bytes : List Byte) : (s.bindImage bytes).tileIndex = s.tileIndex := rfl
@[simp] theorem State.bindImage_imageCount (bytes : List Byte) : (s.bindImage bytes).imageCount = s.imageCount := rfl
@[simp] theorem State.bindImage_imgW (bytes : List Byte) : (s.bindImage bytes).imgW = s.imgW := rfl
@[simp] theorem State.bindImage_imgH (bytes : List Byte) : (s.bindImage bytes).imgH = s.imgH := rfl
@[simp] theorem State.bindImage_imgStart (bytes : List Byte) : (s.bindImage bytes).imgStart = s.imgStart := rfl
@[simp] theorem State.bindImage_curTX (bytes : List Byte) : (s.bindImage bytes).curTX = s.curTX := rfl
@[simp] theorem State.bindImage_curTY (bytes : List Byte) : (s.bindImage bytes).curTY = s.curTY := rfl
@[simp] theorem State.bindImage_palCount (bytes : List Byte) : (s.bindImage bytes).palCount = s.palCount := rfl
@[simp] theorem State.bindImage_palEntry (bytes : List Byte) : (s.bindImage bytes).palEntry = s.palEntry := rfl
@[simp] theorem State.bindImage_pairCount (bytes : List Byte) : (s.bindImage bytes).pairCount = s.pairCount := rfl
@[simp] theorem State.bindImage_pairEntry0 (bytes : List Byte) : (s.bindImage bytes).pairEntry0 = s.pairEntry0 := rfl
@[simp] theorem State.bindImage_pairEntry1 (bytes : List Byte) : (s.bindImage bytes).pairEntry1 = s.pairEntry1 := rfl
@[simp] theorem State.bindImage_groupPos (bytes : List Byte) : (s.bindImage bytes).groupPos = s.groupPos := rfl
@[simp] theorem State.bindImage_warnUnmappable (bytes : List Byte) : (s.bindImage bytes).warnUnmappable = s.warnUnmappable := rfl
@[simp] theorem State.bindImage_faultCode (bytes : List Byte) : (s.bindImage bytes).faultCode = s.faultCode := rfl
@[simp] theorem State.bindImage_faultImage (bytes : List Byte) : (s.bindImage bytes).faultImage = s.faultImage := rfl
@[simp] theorem State.bindImage_faultTX (bytes : List Byte) : (s.bindImage bytes).faultTX = s.faultTX := rfl
@[simp] theorem State.bindImage_faultTY (bytes : List Byte) : (s.bindImage bytes).faultTY = s.faultTY := rfl
@[simp] theorem State.bindImage_faultTile (bytes : List Byte) : (s.bindImage bytes).faultTile = s.faultTile := rfl
@[simp] theorem State.bindImage_refPalette (bytes : List Byte) : (s.bindImage bytes).refPalette = s.refPalette := rfl
@[simp] theorem State.bindImage_imgMem (bytes : List Byte) : (s.bindImage bytes).imgMem = cellsFrom 0 bytes := rfl
@[simp] theorem State.bindImage_imgLen (bytes : List Byte) : (s.bindImage bytes).imgLen = bytes.length := rfl
@[simp] theorem State.bindImage_imageBound (bytes : List Byte) : (s.bindImage bytes).imageBound = true := rfl
@[simp] theorem State.bindImage_bindings (bytes : List Byte) : (s.bindImage bytes).bindings = s.bindings + 1 := rfl
@[simp] theorem State.bindImage_input (bytes : List Byte) : (s.bindImage bytes).input = s.input := rfl
@[simp] theorem State.bindImage_responses (bytes : List Byte) : (s.bindImage bytes).responses = s.responses := rfl
@[simp] theorem State.bindImage_sink (bytes : List Byte) : (s.bindImage bytes).sink = s.sink := rfl

/-! ### setPal -/

@[simp] theorem State.setPal_runState (P : List (BitVec 6)) : (s.setPal P).runState = s.runState := rfl
@[simp] theorem State.setPal_mode (P : List (BitVec 6)) : (s.setPal P).mode = s.mode := rfl
@[simp] theorem State.setPal_tileIndex (P : List (BitVec 6)) : (s.setPal P).tileIndex = s.tileIndex := rfl
@[simp] theorem State.setPal_imageCount (P : List (BitVec 6)) : (s.setPal P).imageCount = s.imageCount := rfl
@[simp] theorem State.setPal_imgW (P : List (BitVec 6)) : (s.setPal P).imgW = s.imgW := rfl
@[simp] theorem State.setPal_imgH (P : List (BitVec 6)) : (s.setPal P).imgH = s.imgH := rfl
@[simp] theorem State.setPal_imgStart (P : List (BitVec 6)) : (s.setPal P).imgStart = s.imgStart := rfl
@[simp] theorem State.setPal_curTX (P : List (BitVec 6)) : (s.setPal P).curTX = s.curTX := rfl
@[simp] theorem State.setPal_curTY (P : List (BitVec 6)) : (s.setPal P).curTY = s.curTY := rfl
@[simp] theorem State.setPal_palCount (P : List (BitVec 6)) : (s.setPal P).palCount = BitVec.ofNat 5 P.length := rfl
@[simp] theorem State.setPal_palEntry (P : List (BitVec 6)) : (s.setPal P).palEntry = Vector.ofFn fun i : Fin 16 => P[i.val]?.getD s.palEntry[i] := rfl
@[simp] theorem State.setPal_pairCount (P : List (BitVec 6)) : (s.setPal P).pairCount = s.pairCount := rfl
@[simp] theorem State.setPal_pairEntry0 (P : List (BitVec 6)) : (s.setPal P).pairEntry0 = s.pairEntry0 := rfl
@[simp] theorem State.setPal_pairEntry1 (P : List (BitVec 6)) : (s.setPal P).pairEntry1 = s.pairEntry1 := rfl
@[simp] theorem State.setPal_groupPos (P : List (BitVec 6)) : (s.setPal P).groupPos = s.groupPos := rfl
@[simp] theorem State.setPal_warnUnmappable (P : List (BitVec 6)) : (s.setPal P).warnUnmappable = s.warnUnmappable := rfl
@[simp] theorem State.setPal_faultCode (P : List (BitVec 6)) : (s.setPal P).faultCode = s.faultCode := rfl
@[simp] theorem State.setPal_faultImage (P : List (BitVec 6)) : (s.setPal P).faultImage = s.faultImage := rfl
@[simp] theorem State.setPal_faultTX (P : List (BitVec 6)) : (s.setPal P).faultTX = s.faultTX := rfl
@[simp] theorem State.setPal_faultTY (P : List (BitVec 6)) : (s.setPal P).faultTY = s.faultTY := rfl
@[simp] theorem State.setPal_faultTile (P : List (BitVec 6)) : (s.setPal P).faultTile = s.faultTile := rfl
@[simp] theorem State.setPal_refPalette (P : List (BitVec 6)) : (s.setPal P).refPalette = s.refPalette := rfl
@[simp] theorem State.setPal_imgMem (P : List (BitVec 6)) : (s.setPal P).imgMem = s.imgMem := rfl
@[simp] theorem State.setPal_imgLen (P : List (BitVec 6)) : (s.setPal P).imgLen = s.imgLen := rfl
@[simp] theorem State.setPal_imageBound (P : List (BitVec 6)) : (s.setPal P).imageBound = s.imageBound := rfl
@[simp] theorem State.setPal_bindings (P : List (BitVec 6)) : (s.setPal P).bindings = s.bindings := rfl
@[simp] theorem State.setPal_input (P : List (BitVec 6)) : (s.setPal P).input = s.input := rfl
@[simp] theorem State.setPal_responses (P : List (BitVec 6)) : (s.setPal P).responses = s.responses := rfl
@[simp] theorem State.setPal_sink (P : List (BitVec 6)) : (s.setPal P).sink = s.sink := rfl

/-! ### setPair -/

@[simp] theorem State.setPair_runState (L : List (BitVec 4)) : (s.setPair L).runState = s.runState := rfl
@[simp] theorem State.setPair_mode (L : List (BitVec 4)) : (s.setPair L).mode = s.mode := rfl
@[simp] theorem State.setPair_tileIndex (L : List (BitVec 4)) : (s.setPair L).tileIndex = s.tileIndex := rfl
@[simp] theorem State.setPair_imageCount (L : List (BitVec 4)) : (s.setPair L).imageCount = s.imageCount := rfl
@[simp] theorem State.setPair_imgW (L : List (BitVec 4)) : (s.setPair L).imgW = s.imgW := rfl
@[simp] theorem State.setPair_imgH (L : List (BitVec 4)) : (s.setPair L).imgH = s.imgH := rfl
@[simp] theorem State.setPair_imgStart (L : List (BitVec 4)) : (s.setPair L).imgStart = s.imgStart := rfl
@[simp] theorem State.setPair_curTX (L : List (BitVec 4)) : (s.setPair L).curTX = s.curTX := rfl
@[simp] theorem State.setPair_curTY (L : List (BitVec 4)) : (s.setPair L).curTY = s.curTY := rfl
@[simp] theorem State.setPair_palCount (L : List (BitVec 4)) : (s.setPair L).palCount = s.palCount := rfl
@[simp] theorem State.setPair_palEntry (L : List (BitVec 4)) : (s.setPair L).palEntry = s.palEntry := rfl
@[simp] theorem State.setPair_pairCount (L : List (BitVec 4)) : (s.setPair L).pairCount = BitVec.ofNat 2 L.length := rfl
@[simp] theorem State.setPair_pairEntry0 (L : List (BitVec 4)) : (s.setPair L).pairEntry0 = L[0]?.getD 0 := rfl
@[simp] theorem State.setPair_pairEntry1 (L : List (BitVec 4)) : (s.setPair L).pairEntry1 = L[1]?.getD 0 := rfl
@[simp] theorem State.setPair_groupPos (L : List (BitVec 4)) : (s.setPair L).groupPos = s.groupPos := rfl
@[simp] theorem State.setPair_warnUnmappable (L : List (BitVec 4)) : (s.setPair L).warnUnmappable = s.warnUnmappable := rfl
@[simp] theorem State.setPair_faultCode (L : List (BitVec 4)) : (s.setPair L).faultCode = s.faultCode := rfl
@[simp] theorem State.setPair_faultImage (L : List (BitVec 4)) : (s.setPair L).faultImage = s.faultImage := rfl
@[simp] theorem State.setPair_faultTX (L : List (BitVec 4)) : (s.setPair L).faultTX = s.faultTX := rfl
@[simp] theorem State.setPair_faultTY (L : List (BitVec 4)) : (s.setPair L).faultTY = s.faultTY := rfl
@[simp] theorem State.setPair_faultTile (L : List (BitVec 4)) : (s.setPair L).faultTile = s.faultTile := rfl
@[simp] theorem State.setPair_refPalette (L : List (BitVec 4)) : (s.setPair L).refPalette = s.refPalette := rfl
@[simp] theorem State.setPair_imgMem (L : List (BitVec 4)) : (s.setPair L).imgMem = s.imgMem := rfl
@[simp] theorem State.setPair_imgLen (L : List (BitVec 4)) : (s.setPair L).imgLen = s.imgLen := rfl
@[simp] theorem State.setPair_imageBound (L : List (BitVec 4)) : (s.setPair L).imageBound = s.imageBound := rfl
@[simp] theorem State.setPair_bindings (L : List (BitVec 4)) : (s.setPair L).bindings = s.bindings := rfl
@[simp] theorem State.setPair_input (L : List (BitVec 4)) : (s.setPair L).input = s.input := rfl
@[simp] theorem State.setPair_responses (L : List (BitVec 4)) : (s.setPair L).responses = s.responses := rfl
@[simp] theorem State.setPair_sink (L : List (BitVec 4)) : (s.setPair L).sink = s.sink := rfl

/-! ### closeGroup -/

@[simp] theorem State.closeGroup_runState : (s.closeGroup).runState = s.runState := rfl
@[simp] theorem State.closeGroup_mode : (s.closeGroup).mode = s.mode := rfl
@[simp] theorem State.closeGroup_tileIndex : (s.closeGroup).tileIndex = s.tileIndex := rfl
@[simp] theorem State.closeGroup_imageCount : (s.closeGroup).imageCount = s.imageCount := rfl
@[simp] theorem State.closeGroup_imgW : (s.closeGroup).imgW = s.imgW := rfl
@[simp] theorem State.closeGroup_imgH : (s.closeGroup).imgH = s.imgH := rfl
@[simp] theorem State.closeGroup_imgStart : (s.closeGroup).imgStart = s.imgStart := rfl
@[simp] theorem State.closeGroup_curTX : (s.closeGroup).curTX = s.curTX := rfl
@[simp] theorem State.closeGroup_curTY : (s.closeGroup).curTY = s.curTY := rfl
@[simp] theorem State.closeGroup_palCount : (s.closeGroup).palCount = s.palCount := rfl
@[simp] theorem State.closeGroup_palEntry : (s.closeGroup).palEntry = s.palEntry := rfl
@[simp] theorem State.closeGroup_pairCount : (s.closeGroup).pairCount = 0 := rfl
@[simp] theorem State.closeGroup_pairEntry0 : (s.closeGroup).pairEntry0 = 0 := rfl
@[simp] theorem State.closeGroup_pairEntry1 : (s.closeGroup).pairEntry1 = 0 := rfl
@[simp] theorem State.closeGroup_groupPos : (s.closeGroup).groupPos = 0 := rfl
@[simp] theorem State.closeGroup_warnUnmappable : (s.closeGroup).warnUnmappable = s.warnUnmappable := rfl
@[simp] theorem State.closeGroup_faultCode : (s.closeGroup).faultCode = s.faultCode := rfl
@[simp] theorem State.closeGroup_faultImage : (s.closeGroup).faultImage = s.faultImage := rfl
@[simp] theorem State.closeGroup_faultTX : (s.closeGroup).faultTX = s.faultTX := rfl
@[simp] theorem State.closeGroup_faultTY : (s.closeGroup).faultTY = s.faultTY := rfl
@[simp] theorem State.closeGroup_faultTile : (s.closeGroup).faultTile = s.faultTile := rfl
@[simp] theorem State.closeGroup_refPalette : (s.closeGroup).refPalette = s.refPalette := rfl
@[simp] theorem State.closeGroup_imgMem : (s.closeGroup).imgMem = s.imgMem := rfl
@[simp] theorem State.closeGroup_imgLen : (s.closeGroup).imgLen = s.imgLen := rfl
@[simp] theorem State.closeGroup_imageBound : (s.closeGroup).imageBound = s.imageBound := rfl
@[simp] theorem State.closeGroup_bindings : (s.closeGroup).bindings = s.bindings := rfl
@[simp] theorem State.closeGroup_input : (s.closeGroup).input = s.input := rfl
@[simp] theorem State.closeGroup_responses : (s.closeGroup).responses = s.responses := rfl
@[simp] theorem State.closeGroup_sink : (s.closeGroup).sink = s.sink := rfl

/-! ### takeFault -/

@[simp] theorem State.takeFault_runState (f : FatalFault) : (s.takeFault f).runState = .faulted := rfl
@[simp] theorem State.takeFault_mode (f : FatalFault) : (s.takeFault f).mode = s.mode := rfl
@[simp] theorem State.takeFault_tileIndex (f : FatalFault) : (s.takeFault f).tileIndex = s.tileIndex := rfl
@[simp] theorem State.takeFault_imageCount (f : FatalFault) : (s.takeFault f).imageCount = s.imageCount := rfl
@[simp] theorem State.takeFault_imgW (f : FatalFault) : (s.takeFault f).imgW = s.imgW := rfl
@[simp] theorem State.takeFault_imgH (f : FatalFault) : (s.takeFault f).imgH = s.imgH := rfl
@[simp] theorem State.takeFault_imgStart (f : FatalFault) : (s.takeFault f).imgStart = s.imgStart := rfl
@[simp] theorem State.takeFault_curTX (f : FatalFault) : (s.takeFault f).curTX = s.curTX := rfl
@[simp] theorem State.takeFault_curTY (f : FatalFault) : (s.takeFault f).curTY = s.curTY := rfl
@[simp] theorem State.takeFault_palCount (f : FatalFault) : (s.takeFault f).palCount = s.palCount := rfl
@[simp] theorem State.takeFault_palEntry (f : FatalFault) : (s.takeFault f).palEntry = s.palEntry := rfl
@[simp] theorem State.takeFault_pairCount (f : FatalFault) : (s.takeFault f).pairCount = s.pairCount := rfl
@[simp] theorem State.takeFault_pairEntry0 (f : FatalFault) : (s.takeFault f).pairEntry0 = s.pairEntry0 := rfl
@[simp] theorem State.takeFault_pairEntry1 (f : FatalFault) : (s.takeFault f).pairEntry1 = s.pairEntry1 := rfl
@[simp] theorem State.takeFault_groupPos (f : FatalFault) : (s.takeFault f).groupPos = s.groupPos := rfl
@[simp] theorem State.takeFault_warnUnmappable (f : FatalFault) : (s.takeFault f).warnUnmappable = s.warnUnmappable := rfl
@[simp] theorem State.takeFault_faultCode (f : FatalFault) : (s.takeFault f).faultCode = statusCode (faultStatus f) := rfl
@[simp] theorem State.takeFault_faultImage (f : FatalFault) : (s.takeFault f).faultImage = s.imageCount - 1 := rfl
@[simp] theorem State.takeFault_faultTX (f : FatalFault) : (s.takeFault f).faultTX = s.curTX := rfl
@[simp] theorem State.takeFault_faultTY (f : FatalFault) : (s.takeFault f).faultTY = s.curTY := rfl
@[simp] theorem State.takeFault_faultTile (f : FatalFault) : (s.takeFault f).faultTile = s.tileIndex := rfl
@[simp] theorem State.takeFault_refPalette (f : FatalFault) : (s.takeFault f).refPalette = s.refPalette := rfl
@[simp] theorem State.takeFault_imgMem (f : FatalFault) : (s.takeFault f).imgMem = s.imgMem := rfl
@[simp] theorem State.takeFault_imgLen (f : FatalFault) : (s.takeFault f).imgLen = s.imgLen := rfl
@[simp] theorem State.takeFault_imageBound (f : FatalFault) : (s.takeFault f).imageBound = s.imageBound := rfl
@[simp] theorem State.takeFault_bindings (f : FatalFault) : (s.takeFault f).bindings = s.bindings := rfl
@[simp] theorem State.takeFault_input (f : FatalFault) : (s.takeFault f).input = s.input := rfl
@[simp] theorem State.takeFault_responses (f : FatalFault) : (s.takeFault f).responses = s.responses ++ [⟨faultStatus f, 0⟩] := rfl
@[simp] theorem State.takeFault_sink (f : FatalFault) : (s.takeFault f).sink = s.sink := rfl

/-! ### clearBlock -/

@[simp] theorem State.clearBlock_runState (rs : RunState) (m : Mode) : (s.clearBlock rs m).runState = rs := rfl
@[simp] theorem State.clearBlock_mode (rs : RunState) (m : Mode) : (s.clearBlock rs m).mode = m := rfl
@[simp] theorem State.clearBlock_tileIndex (rs : RunState) (m : Mode) : (s.clearBlock rs m).tileIndex = 0 := rfl
@[simp] theorem State.clearBlock_imageCount (rs : RunState) (m : Mode) : (s.clearBlock rs m).imageCount = 0 := rfl
@[simp] theorem State.clearBlock_imgW (rs : RunState) (m : Mode) : (s.clearBlock rs m).imgW = 0 := rfl
@[simp] theorem State.clearBlock_imgH (rs : RunState) (m : Mode) : (s.clearBlock rs m).imgH = 0 := rfl
@[simp] theorem State.clearBlock_imgStart (rs : RunState) (m : Mode) : (s.clearBlock rs m).imgStart = 0 := rfl
@[simp] theorem State.clearBlock_curTX (rs : RunState) (m : Mode) : (s.clearBlock rs m).curTX = 0 := rfl
@[simp] theorem State.clearBlock_curTY (rs : RunState) (m : Mode) : (s.clearBlock rs m).curTY = 0 := rfl
@[simp] theorem State.clearBlock_palCount (rs : RunState) (m : Mode) : (s.clearBlock rs m).palCount = 0 := rfl
@[simp] theorem State.clearBlock_palEntry (rs : RunState) (m : Mode) : (s.clearBlock rs m).palEntry = Vector.replicate 16 0 := rfl
@[simp] theorem State.clearBlock_pairCount (rs : RunState) (m : Mode) : (s.clearBlock rs m).pairCount = 0 := rfl
@[simp] theorem State.clearBlock_pairEntry0 (rs : RunState) (m : Mode) : (s.clearBlock rs m).pairEntry0 = 0 := rfl
@[simp] theorem State.clearBlock_pairEntry1 (rs : RunState) (m : Mode) : (s.clearBlock rs m).pairEntry1 = 0 := rfl
@[simp] theorem State.clearBlock_groupPos (rs : RunState) (m : Mode) : (s.clearBlock rs m).groupPos = 0 := rfl
@[simp] theorem State.clearBlock_warnUnmappable (rs : RunState) (m : Mode) : (s.clearBlock rs m).warnUnmappable = false := rfl
@[simp] theorem State.clearBlock_faultCode (rs : RunState) (m : Mode) : (s.clearBlock rs m).faultCode = 0 := rfl
@[simp] theorem State.clearBlock_faultImage (rs : RunState) (m : Mode) : (s.clearBlock rs m).faultImage = 0 := rfl
@[simp] theorem State.clearBlock_faultTX (rs : RunState) (m : Mode) : (s.clearBlock rs m).faultTX = 0 := rfl
@[simp] theorem State.clearBlock_faultTY (rs : RunState) (m : Mode) : (s.clearBlock rs m).faultTY = 0 := rfl
@[simp] theorem State.clearBlock_faultTile (rs : RunState) (m : Mode) : (s.clearBlock rs m).faultTile = 0 := rfl
@[simp] theorem State.clearBlock_refPalette (rs : RunState) (m : Mode) : (s.clearBlock rs m).refPalette = s.refPalette := rfl
@[simp] theorem State.clearBlock_imgMem (rs : RunState) (m : Mode) : (s.clearBlock rs m).imgMem = s.imgMem := rfl
@[simp] theorem State.clearBlock_imgLen (rs : RunState) (m : Mode) : (s.clearBlock rs m).imgLen = s.imgLen := rfl
@[simp] theorem State.clearBlock_imageBound (rs : RunState) (m : Mode) : (s.clearBlock rs m).imageBound = s.imageBound := rfl
@[simp] theorem State.clearBlock_bindings (rs : RunState) (m : Mode) : (s.clearBlock rs m).bindings = s.bindings := rfl
@[simp] theorem State.clearBlock_input (rs : RunState) (m : Mode) : (s.clearBlock rs m).input = s.input := rfl
@[simp] theorem State.clearBlock_responses (rs : RunState) (m : Mode) : (s.clearBlock rs m).responses = s.responses := rfl
@[simp] theorem State.clearBlock_sink (rs : RunState) (m : Mode) : (s.clearBlock rs m).sink = s.sink := rfl

/-! ### powerOn -/

@[simp] theorem State.powerOn_runState : (s.powerOn).runState = .idle := rfl
@[simp] theorem State.powerOn_mode : (s.powerOn).mode = .mode4 := rfl
@[simp] theorem State.powerOn_tileIndex : (s.powerOn).tileIndex = 0 := rfl
@[simp] theorem State.powerOn_imageCount : (s.powerOn).imageCount = 0 := rfl
@[simp] theorem State.powerOn_imgW : (s.powerOn).imgW = 0 := rfl
@[simp] theorem State.powerOn_imgH : (s.powerOn).imgH = 0 := rfl
@[simp] theorem State.powerOn_imgStart : (s.powerOn).imgStart = 0 := rfl
@[simp] theorem State.powerOn_curTX : (s.powerOn).curTX = 0 := rfl
@[simp] theorem State.powerOn_curTY : (s.powerOn).curTY = 0 := rfl
@[simp] theorem State.powerOn_palCount : (s.powerOn).palCount = 0 := rfl
@[simp] theorem State.powerOn_palEntry : (s.powerOn).palEntry = Vector.replicate 16 0 := rfl
@[simp] theorem State.powerOn_pairCount : (s.powerOn).pairCount = 0 := rfl
@[simp] theorem State.powerOn_pairEntry0 : (s.powerOn).pairEntry0 = 0 := rfl
@[simp] theorem State.powerOn_pairEntry1 : (s.powerOn).pairEntry1 = 0 := rfl
@[simp] theorem State.powerOn_groupPos : (s.powerOn).groupPos = 0 := rfl
@[simp] theorem State.powerOn_warnUnmappable : (s.powerOn).warnUnmappable = false := rfl
@[simp] theorem State.powerOn_faultCode : (s.powerOn).faultCode = 0 := rfl
@[simp] theorem State.powerOn_faultImage : (s.powerOn).faultImage = 0 := rfl
@[simp] theorem State.powerOn_faultTX : (s.powerOn).faultTX = 0 := rfl
@[simp] theorem State.powerOn_faultTY : (s.powerOn).faultTY = 0 := rfl
@[simp] theorem State.powerOn_faultTile : (s.powerOn).faultTile = 0 := rfl
@[simp] theorem State.powerOn_refPalette : (s.powerOn).refPalette = s.refPalette := rfl
@[simp] theorem State.powerOn_imgMem : (s.powerOn).imgMem = s.imgMem := rfl
@[simp] theorem State.powerOn_imgLen : (s.powerOn).imgLen = s.imgLen := rfl
@[simp] theorem State.powerOn_imageBound : (s.powerOn).imageBound = s.imageBound := rfl
@[simp] theorem State.powerOn_bindings : (s.powerOn).bindings = s.bindings := rfl
@[simp] theorem State.powerOn_input : (s.powerOn).input = s.input := rfl
@[simp] theorem State.powerOn_responses : (s.powerOn).responses = s.responses := rfl
@[simp] theorem State.powerOn_sink : (s.powerOn).sink = s.sink := rfl

end Sys2Proof.Machine
end

