-- ==== Sys2Proof/Laws/ColourTable.lean ====
section
/-! SUPPORT. The colour-table manager: the colours of a tile, the pair registers, and what each step of a Mode-0 tile does. -/

namespace Sys2Proof.Machine

/-- What the scan of CT_TEST_PAIR keeps when it does not fault (R150). -/
theorem testPairFrom_ok (ref : Vector Rgb 16) : ∀ {t : List Pixel} {test test' : List (BitVec 4)},
    test.length ≤ 2 → test.Nodup → 0 ∉ test → testPairFrom ref test t = .ok test' →
    test <+: test' ∧ test'.length ≤ 2 ∧ test'.Nodup ∧ 0 ∉ test' ∧
      ∀ c, c ∈ test' ↔ c ∈ test ∨ c ≠ 0 ∧ ∃ px ∈ t, (classifyM0 ref px).1 = c
  | [], test, test', hl, hn, h0, h => by
    cases h
    exact ⟨List.prefix_refl _, hl, hn, h0, by simp⟩
  | px :: rest, test, test', hl, hn, h0, h => by
    unfold testPairFrom at h
    simp only at h
    split at h
    · rename_i hc
      split at h
      · cases h
      · obtain ⟨r1, r2, r3, r4, r5⟩ := testPairFrom_ok ref (test := test ++ [(classifyM0 ref px).1])
          (by simp only [List.length_append, List.length_singleton]; omega)
          (List.nodup_append.mpr ⟨hn, by simp, fun a ha b hb e => hc.2 (List.mem_singleton.mp hb ▸ e ▸ ha)⟩)
          (by simpa using ⟨h0, Ne.symm hc.1⟩) h
        refine ⟨(List.prefix_append _ _).trans r1, r2, r3, r4, fun c => ?_⟩
        rw [r5, List.mem_append, List.mem_singleton]
        simp only [List.mem_cons, exists_eq_or_imp]
        constructor
        · rintro ((hm | rfl) | ⟨hz, hr⟩)
          · exact .inl hm
          · exact .inr ⟨hc.1, .inl rfl⟩
          · exact .inr ⟨hz, .inr hr⟩
        · rintro (hm | ⟨hz, rfl | hr⟩)
          · exact .inl (.inl hm)
          · exact .inl (.inr rfl)
          · exact .inr ⟨hz, hr⟩
    · rename_i hc
      obtain ⟨r1, r2, r3, r4, r5⟩ := testPairFrom_ok ref hl hn h0 h
      refine ⟨r1, r2, r3, r4, fun c => ?_⟩
      rw [r5]
      simp only [List.mem_cons, exists_eq_or_imp]
      constructor
      · rintro (hm | ⟨hz, hr⟩)
        · exact .inl hm
        · exact .inr ⟨hz, .inr hr⟩
      · rintro (hm | ⟨hz, rfl | hr⟩)
        · exact .inl hm
        · exact .inl (by_contra fun hm => hc ⟨hz, hm⟩)
        · exact .inr ⟨hz, hr⟩

/-- CT_TEST_PAIR faults only with TOO_MANY_COLOURS_IN_TILE (R151). -/
theorem testPairFrom_error (ref : Vector Rgb 16) : ∀ {t : List Pixel} {test : List (BitVec 4)} {f : FatalFault},
    testPairFrom ref test t = .error f → f = .tooManyColoursInTile
  | [], _, _, h => by cases h
  | px :: rest, test, f, h => by
    unfold testPairFrom at h
    simp only at h
    split at h
    · split at h
      · cases h; rfl
      · exact testPairFrom_error ref h
    · exact testPairFrom_error ref h

/-- Writing the pair registers and reading them back (R30). -/
theorem State.setPair_pair (s : State) {L : List (BitVec 4)} (h : L.length ≤ 2) : (s.setPair L).pair = L := by
  match L, h with
  | [], _ => rfl
  | [_], _ => rfl
  | [_, _], _ => rfl

/-- Writing back a pair that keeps the invariants of R30 changes nothing (R194). -/
theorem State.setPair_self (s : State) (hc : s.pairCount.toNat ≤ 2) (h0 : s.pairCount = 0 → s.pairEntry0 = 0)
    (h1 : s.pairCount.toNat ≤ 1 → s.pairEntry1 = 0) : s.setPair s.pair = s := by
  have hcase : ∀ c : BitVec 2, c.toNat ≤ 2 → c = 0 ∨ c = 1 ∨ c = 2 := by decide
  rcases s with ⟨_, _, _, _, _, _, _, _, _, _, _, c, e0, e1, _, _, _, _, _, _, _, _, _, _, _, _, _⟩
  rcases hcase c hc with rfl | rfl | rfl
  · have e0 := h0 rfl
    have e1 := h1 (show (_ : BitVec 2).toNat ≤ 1 from by simp)
    simp only at e0 e1
    subst e0 e1
    rfl
  · have e1 := h1 (show (_ : BitVec 2).toNat ≤ 1 from by simp)
    simp only at e1
    subst e1
    rfl
  · rfl

/-- The warning (R193), as one update of the state. -/
theorem State.warnIf_eq (s : State) (seen : Bool) :
    s.warnIf seen =
      { s with
        warnUnmappable := s.warnUnmappable || seen
        sink := s.sink ++ if seen && !s.warnUnmappable then [.diag 4] else [] } := by
  unfold State.warnIf
  rcases s with ⟨_, _, _, _, _, _, _, _, _, _, _, _, _, _, _, w, _, _, _, _, _, _, _, _, _, _, sk⟩
  cases seen <;> cases w <;> simp [State.emit, State.emitAll, unmappableCode]

theorem flatten_padTiles (n : Nat) : (List.replicate n padTile).flatten = List.replicate (8 * n) (.pat8 0) := by
  rw [padTile, List.flatten_replicate_replicate, Nat.mul_comm]

/-- CT_ROLLOVER (R153), as one update of the state. -/
theorem rollover_eq (s : State) :
    rollover s =
      ({ s with
          tileIndex := s.tileIndex + BitVec.ofNat 32 (8 - s.groupPos.toNat)
          pairCount := 0, pairEntry0 := 0, pairEntry1 := 0, groupPos := 0
          sink := s.sink ++ (List.replicate (8 * (8 - s.groupPos.toNat)) (.pat8 0) ++ [.ctb (ctByte s.pair)]) },
        8 - s.groupPos.toNat) := by
  simp only [rollover, flatten_padTiles]
  simp [State.emit, State.emitAll, State.closeGroup, State.setPair, State.pair, List.append_assoc]

/-- CT_ADVANCE (R157), as one update of the state. -/
theorem advanceGroup_eq (s : State) :
    advanceGroup s =
      if s.groupPos.toNat + 1 = 8 then
        { s with pairCount := 0, pairEntry0 := 0, pairEntry1 := 0, groupPos := 0, sink := s.sink ++ [.ctb (ctByte s.pair)] }
      else { s with groupPos := s.groupPos + 1 } := by
  unfold advanceGroup
  split <;> rfl

/-- CT_FLUSH (R158), as one update of the state. -/
theorem flush_eq (s : State) :
    flush s = { s with sink := s.sink ++ if s.groupPos = 0 then [] else [.ctb (ctByte s.pair)] } := by
  unfold flush
  by_cases h : s.groupPos = 0
  · rw [if_neg (by simp [h]), if_pos h, List.append_nil]
  · rw [if_pos h, if_neg h]; rfl

end Sys2Proof.Machine
end

