-- ==== Sys2Proof/Laws/EncoderM0.lean ====
section
/-! SUPPORT. The Mode-0 tile encoder: what placing a tile and a rollover do to the state, as updates of single fields. -/

namespace Sys2Proof.Machine

/-- Placing a Mode-0 tile (R190, steps 4 and 5), as one update of the state. -/
theorem placeTile_eq (t : List Pixel) (test : List (BitVec 4)) (s : State) :
    placeTile t test s =
      let p := (s.setPair (merge s.pair test)).pair
      let full := s.groupPos.toNat + 1 = 8
      { s with
        tileIndex := s.tileIndex + 1
        pairCount := if full then 0 else BitVec.ofNat 2 (merge s.pair test).length
        pairEntry0 := if full then 0 else (merge s.pair test)[0]?.getD 0
        pairEntry1 := if full then 0 else (merge s.pair test)[1]?.getD 0
        groupPos := if full then 0 else s.groupPos + 1
        sink := s.sink ++ (rowRecords s.refPalette p t ++ if full then [.ctb (ctByte p)] else []) } := by
  unfold placeTile
  rw [advanceGroup_eq]
  by_cases h : s.groupPos.toNat + 1 = 8
  · rw [if_pos (show ((s.setPair (merge s.pair test)).emitAll _).groupPos.toNat + 1 = 8 from h)]
    simp only [if_pos h, ← List.append_assoc]
    rfl
  · rw [if_neg (show ¬ ((s.setPair (merge s.pair test)).emitAll _).groupPos.toNat + 1 = 8 from h)]
    simp only [if_neg h, List.append_nil]
    rfl

/-- Placing a Mode-0 tile changes only the index, the pair, the group position and the sink. -/
theorem placeTile_frame (t : List Pixel) (test : List (BitVec 4)) (s : State) :
    ∃ pc e0 e1 gp rs, placeTile t test s =
      { s with
        tileIndex := s.tileIndex + 1, pairCount := pc, pairEntry0 := e0, pairEntry1 := e1, groupPos := gp
        sink := s.sink ++ rs } :=
  ⟨_, _, _, _, _, placeTile_eq t test s⟩

/-- A rollover, where there is one, changes only the index, the pair, the group position and the sink (R153). -/
theorem rolloverIfNeeded_frame (s : State) (test : List (BitVec 4)) :
    ∃ pc e0 e1 gp rs, (rolloverIfNeeded s test).1 =
      { s with
        tileIndex := s.tileIndex + BitVec.ofNat 32 (rolloverIfNeeded s test).2
        pairCount := pc, pairEntry0 := e0, pairEntry1 := e1, groupPos := gp, sink := s.sink ++ rs } := by
  unfold rolloverIfNeeded
  split
  · refine ⟨s.pairCount, s.pairEntry0, s.pairEntry1, s.groupPos, [], ?_⟩
    rw [List.append_nil, show s.tileIndex + BitVec.ofNat 32 0 = s.tileIndex from BitVec.add_zero _]
  · rw [rollover_eq]
    exact ⟨0, 0, 0, 0, _, rfl⟩

end Sys2Proof.Machine
end

