-- ==== Sys2Proof/Laws/Memory.lean ====
section
/-! SUPPORT. The image memory: binding a buffer keeps the canonical form, and what a read of the memory can answer. -/

namespace Sys2Proof.Machine

theorem memoryWfFrom_mono {lo lo' : Nat} (h : lo' ≤ lo) : ∀ m, memoryWfFrom lo m = true → memoryWfFrom lo' m = true
  | [], _ => rfl
  | (k, v) :: rest, hm => by
    simp only [memoryWfFrom, Bool.and_eq_true, decide_eq_true_eq] at hm ⊢
    exact ⟨⟨h.trans hm.1.1, hm.1.2⟩, hm.2⟩

theorem memoryWfFrom_cellsFrom : ∀ (bytes : List Byte) (a : Nat), memoryWfFrom a (cellsFrom a bytes) = true
  | [], _ => rfl
  | b :: rest, a => by
    unfold cellsFrom
    split
    · exact memoryWfFrom_mono (Nat.le_succ a) _ (memoryWfFrom_cellsFrom rest (a + 1))
    · rename_i hb
      simp [memoryWfFrom, hb, memoryWfFrom_cellsFrom rest (a + 1)]

/-- The one operation that changes the image memory keeps its canonical form. -/
theorem wf_bindImage (s : State) (bytes : List Byte) : Memory.wf (s.bindImage bytes).imgMem = true :=
  memoryWfFrom_cellsFrom bytes 0

theorem mem_cellsFrom : ∀ (bytes : List Byte) (a : Nat) (c : Host.Cell), c ∈ cellsFrom a bytes →
    a ≤ c.1 ∧ c.1 < a + bytes.length
  | [], _, _, h => by simp [cellsFrom] at h
  | b :: rest, a, c, h => by
    unfold cellsFrom at h
    split at h
    · have := mem_cellsFrom rest (a + 1) c h
      simp only [List.length_cons]; omega
    · rcases List.mem_cons.mp h with rfl | h
      · simp
      · have := mem_cellsFrom rest (a + 1) c h
        simp only [List.length_cons]; omega

/-- No cell of a bound buffer lies at or beyond IMG_LEN. -/
theorem bounded_bindImage (s : State) (bytes : List Byte) :
    ∀ c ∈ (s.bindImage bytes).imgMem, c.1 < (s.bindImage bytes).imgLen := fun c hc => by
  have := mem_cellsFrom bytes 0 c hc
  simpa using this.2

/-- Below IMG_LEN a byte is the bound buffer's. -/
theorem imageByte_of_lt {s : State} {a : Nat} (h : a < s.imgLen) : imageByte s a = readByte s.imgMem a := if_pos h

/-- At and beyond IMG_LEN a byte is a free value. -/
theorem imageByte_of_le {s : State} {a : Nat} (h : s.imgLen ≤ a) : imageByte s a = Config.byteBeyondBuffer s.bindings a :=
  if_neg (Nat.not_lt.mpr h)

/-- A pixel is its four bytes. -/
theorem readPixel_eq (s : State) (X Y : Nat) :
    readPixel s X Y =
      ⟨imageByte s (pixelOffset s.imgW.toNat X Y), imageByte s (pixelOffset s.imgW.toNat X Y + 1),
        imageByte s (pixelOffset s.imgW.toNat X Y + 2), imageByte s (pixelOffset s.imgW.toNat X Y + 3)⟩ := rfl

theorem tilePositions_length : tilePositions.length = 64 := by decide

theorem mem_tilePositions {p : Nat × Nat} : p ∈ tilePositions ↔ p.1 < 8 ∧ p.2 < 8 := by
  rcases p with ⟨x, y⟩
  simp only [tilePositions, List.mem_flatMap, List.mem_map, List.mem_range, Prod.mk.injEq]
  constructor
  · rintro ⟨y', hy, x', hx, rfl, rfl⟩; exact ⟨hx, hy⟩
  · rintro ⟨hx, hy⟩; exact ⟨y, hy, x, hx, rfl, rfl⟩

/-- Position number 8 * y + x of the visit order is (x, y). -/
theorem tilePositions_get {x y : Nat} (hx : x < 8) (hy : y < 8) : tilePositions[8 * y + x]? = some (x, y) := by
  have h : ∀ y : Fin 8, ∀ x : Fin 8, tilePositions[8 * y.val + x.val]? = some (x.val, y.val) := by decide
  exact h ⟨y, hy⟩ ⟨x, hx⟩

/-- A tile has 64 pixels. -/
theorem fetchTile_length (s : State) (tx ty : Nat) : (fetchTile s tx ty).length = 64 := by
  rw [fetchTile, List.length_map, tilePositions_length]

/-- Pixel (x, y) of a tile is item 8 * y + x (R64). -/
theorem fetchTile_get (s : State) (tx ty : Nat) {x y : Nat} (hx : x < 8) (hy : y < 8) :
    (fetchTile s tx ty)[8 * y + x]? = some (readPixel s (8 * tx + x) (8 * ty + y)) := by
  rw [fetchTile, List.getElem?_map, tilePositions_get hx hy]
  rfl

end Sys2Proof.Machine
end

