-- ==== Sys2Proof/Laws/Palette.lean ====
section
/-! SUPPORT. The palette: what a lookup, a pixel and a tile can do to it, and the palette registers. -/

namespace Sys2Proof.Machine

/-- What PAL_ADD_OR_LOOKUP can answer when it does not fault: the palette grew by nothing or by the colour itself, the colour is in
it, and the answer is its place. -/
theorem addOrLookup_ok {P P' : List (BitVec 6)} {q : BitVec 6} {i : BitVec 4} (hP : P.length ≤ 16)
    (h : addOrLookup P q = .ok (P', i)) :
    P <+: P' ∧ P'.length ≤ 16 ∧ (P.Nodup → P'.Nodup) ∧ P'[i.toNat]? = some q ∧ (P' = P ∨ q ∉ P ∧ P' = P ++ [q]) := by
  unfold addOrLookup at h
  split at h
  · rename_i k hk
    cases h
    obtain ⟨hlt, heq, -⟩ := List.findIdx?_eq_some_iff_getElem.mp hk
    have hk16 : k < 16 := by omega
    refine ⟨List.prefix_refl _, hP, id, ?_, .inl rfl⟩
    simp only [BitVec.toNat_ofNat]
    rw [Nat.mod_eq_of_lt (by omega), List.getElem?_eq_getElem hlt]
    simpa using heq
  · rename_i hnone
    have hq : q ∉ P := by
      intro hq
      have := List.findIdx?_eq_none_iff.mp hnone q hq
      simp at this
    split at h
    · cases h
    · cases h
      refine ⟨List.prefix_append _ _, by simp; omega, fun hn => ?_, ?_, .inr ⟨hq, rfl⟩⟩
      · exact List.nodup_append.mpr ⟨hn, by simp, fun a ha b hb e => hq (List.mem_singleton.mp hb ▸ e ▸ ha)⟩
      · simp only [BitVec.toNat_ofNat]
        rw [Nat.mod_eq_of_lt (by omega)]
        simp

/-- PAL_ADD_OR_LOOKUP faults only with PALETTE_OVERFLOW, for a new colour and a full palette. -/
theorem addOrLookup_error {P : List (BitVec 6)} {q : BitVec 6} {f : FatalFault} (h : addOrLookup P q = .error f) :
    f = .paletteOverflow ∧ q ∉ P ∧ P.length = 16 := by
  unfold addOrLookup at h
  split at h
  · cases h
  · rename_i hnone
    split at h
    · cases h
      refine ⟨rfl, fun hq => ?_, by assumption⟩
      have := List.findIdx?_eq_none_iff.mp hnone q hq
      simp at this
    · cases h

/-- A colour that is in the palette is found, and the palette stays as it is. -/
theorem addOrLookup_mem {P : List (BitVec 6)} {q : BitVec 6} {k : Nat} (hn : P.Nodup) (hk : P[k]? = some q) :
    addOrLookup P q = .ok (P, BitVec.ofNat 4 k) := by
  obtain ⟨hlt, heq⟩ := List.getElem?_eq_some_iff.mp hk
  have : P.findIdx? (· == q) = some k := by
    rw [List.findIdx?_eq_some_iff_getElem]
    refine ⟨hlt, by simp [heq], fun j hj => ?_⟩
    have hne : P[j]'(by omega) ≠ P[k] := fun e => by
      have := (List.Nodup.getElem_inj_iff hn).mp e
      omega
    simpa [heq] using hne
  simp [addOrLookup, this]

/-- What a whole tile can do to the palette when it does not fault. -/
theorem indexTile_ok : ∀ {t : List Pixel} {P P' : List (BitVec 6)} {idx : List (BitVec 4)}, P.length ≤ 16 →
    indexTile P t = .ok (idx, P') →
    P <+: P' ∧ P'.length ≤ 16 ∧ (P.Nodup → P'.Nodup) ∧ idx.length = t.length ∧
      (∀ c ∈ P', c ∈ P ∨ ∃ px ∈ t, classifyM4 px = some c) ∧
      ∀ (k : Nat) (px : Pixel), t[k]? = some px → ∃ i, idx[k]? = some i ∧
        (classifyM4 px = none → i = 0) ∧ ∀ q, classifyM4 px = some q → P'[i.toNat]? = some q
  | [], P, P', idx, hP, h => by
    cases h
    exact ⟨List.prefix_refl _, hP, id, rfl, fun c hc => .inl hc, by simp⟩
  | px :: rest, P, P', idx, hP, h => by
    unfold indexTile at h
    split at h
    · cases h
    rename_i P1 i hpx
    split at h
    · cases h
    rename_i is P2 hrest
    cases h
    have hhead : P <+: P1 ∧ P1.length ≤ 16 ∧ (P.Nodup → P1.Nodup) ∧ (classifyM4 px = none → i = 0) ∧
        (∀ q, classifyM4 px = some q → P1[i.toNat]? = some q) ∧
        ∀ c ∈ P1, c ∈ P ∨ classifyM4 px = some c := by
      unfold indexPixel at hpx
      split at hpx
      · rename_i hnone
        cases hpx
        exact ⟨List.prefix_refl _, hP, id, fun _ => rfl, by simp [hnone], fun c hc => .inl hc⟩
      · rename_i q hq
        have := addOrLookup_ok hP hpx
        refine ⟨this.1, this.2.1, this.2.2.1, by simp [hq], ?_, ?_⟩
        · intro q' hq'
          rw [hq] at hq'
          cases hq'
          exact this.2.2.2.1
        · intro c hc
          rcases this.2.2.2.2 with e | ⟨-, e⟩
          · exact .inl (e ▸ hc)
          · rw [e] at hc
            rcases List.mem_append.mp hc with hc | hc
            · exact .inl hc
            · exact .inr (by rw [hq, List.mem_singleton.mp hc])
    obtain ⟨h1, h2, h3, h4, h5, h6⟩ := hhead
    obtain ⟨r1, r2, r3, r4, r5, r6⟩ := indexTile_ok h2 hrest
    refine ⟨h1.trans r1, r2, fun hn => r3 (h3 hn), by simp [r4], ?_, ?_⟩
    · intro c hc
      rcases r5 c hc with hc | ⟨p, hp, hc⟩
      · rcases h6 c hc with hc | hc
        · exact .inl hc
        · exact .inr ⟨px, by simp, hc⟩
      · exact .inr ⟨p, by simp [hp], hc⟩
    · intro k p hk
      cases k with
      | zero =>
        cases hk
        refine ⟨i, rfl, h4, fun q hq => ?_⟩
        obtain ⟨tl, rfl⟩ := r1
        obtain ⟨hlt, heq⟩ := List.getElem?_eq_some_iff.mp (h5 q hq)
        rw [List.getElem?_append_left hlt, List.getElem?_eq_getElem hlt, heq]
      | succ k => simpa using r6 k p (by simpa using hk)

/-- A Mode-4 tile faults only with PALETTE_OVERFLOW. -/
theorem indexTile_error : ∀ {t : List Pixel} {P : List (BitVec 6)} {f : FatalFault}, indexTile P t = .error f →
    f = .paletteOverflow
  | [], P, f, h => by cases h
  | px :: rest, P, f, h => by
    unfold indexTile at h
    split at h
    · rename_i f' hpx
      cases h
      unfold indexPixel at hpx
      split at hpx
      · cases hpx
      · exact (addOrLookup_error hpx).1
    · split at h
      · rename_i f' hrest
        cases h
        exact indexTile_error hrest
      · cases h

/-- The palette registers hold at most 16 colours. -/
theorem State.pal_length (s : State) : s.pal.length = min s.palCount.toNat 16 := by
  simp [State.pal]

theorem State.pal_getElem? (s : State) (i : Nat) :
    s.pal[i]? = if i < s.palCount.toNat then s.palEntry.toList[i]? else none := by
  rw [State.pal, List.getElem?_take]

/-- Writing the palette registers and reading them back (R183). -/
theorem State.setPal_pal (s : State) {P : List (BitVec 6)} (hP : P.length ≤ 16) : (s.setPal P).pal = P := by
  have hc : (BitVec.ofNat 5 P.length).toNat = P.length := by
    simp only [BitVec.toNat_ofNat]
    omega
  apply List.ext_getElem?
  intro i
  rw [State.pal_getElem?, State.setPal_palCount, hc, State.setPal_palEntry]
  split
  · rename_i hi
    have hi16 : i < 16 := by omega
    rw [List.getElem?_eq_getElem (by simpa using hi16), List.getElem?_eq_getElem hi]
    simp [hi]
  · rename_i hi
    rw [List.getElem?_eq_none (by omega)]

/-- Writing back the palette the registers hold changes nothing (R184). -/
theorem State.setPal_self (s : State) (h : s.palCount.toNat ≤ 16) : s.setPal s.pal = s := by
  have hl : s.pal.length = s.palCount.toNat := by rw [State.pal_length]; omega
  have hc : BitVec.ofNat 5 s.pal.length = s.palCount := by rw [hl]; simp
  have he : (Vector.ofFn fun i : Fin 16 => s.pal[i.val]?.getD s.palEntry[i]) = s.palEntry := by
    refine Vector.ext fun i hi => ?_
    have hi' : i < s.palEntry.toList.length := by simpa using hi
    rw [Vector.getElem_ofFn, State.pal_getElem?]
    split
    · simp only [List.getElem?_eq_getElem hi', Option.getD_some]
      simp
    · rfl
  unfold State.setPal
  rw [hc, he]

end Sys2Proof.Machine
end

