-- ==== Sys2Proof/Laws/Commands.lean ====
section
/-! SUPPORT. What each command can do: one inversion lemma for each meaning and for the operations it is made of. -/

namespace Sys2Proof.Machine

/-- AdvanceCursor (R211): only the cursor and RUN_STATE change. -/
theorem advanceCursor_cases (s : State) :
    (s.curTX.toNat + 1 < s.imgW.toNat / 8 ∧ advanceCursor s = { s with curTX := s.curTX + 1 }) ∨
    (¬ s.curTX.toNat + 1 < s.imgW.toNat / 8 ∧ (s.curTY + 1).toNat = s.imgH.toNat / 8 ∧
      advanceCursor s = { s with curTX := 0, curTY := s.curTY + 1, runState := .ready }) ∨
    (¬ s.curTX.toNat + 1 < s.imgW.toNat / 8 ∧ (s.curTY + 1).toNat ≠ s.imgH.toNat / 8 ∧
      advanceCursor s = { s with curTX := 0, curTY := s.curTY + 1 }) := by
  unfold advanceCursor
  by_cases h1 : s.curTX.toNat + 1 < s.imgW.toNat / 8
  · exact .inl ⟨h1, if_pos h1⟩
  · by_cases h2 : (s.curTY + 1).toNat = s.imgH.toNat / 8
    · exact .inr (.inl ⟨h1, h2, by rw [if_neg h1, if_pos h2]⟩)
    · exact .inr (.inr ⟨h1, h2, by rw [if_neg h1, if_neg h2]⟩)

/-- AdvanceCursor changes nothing but the cursor and RUN_STATE. -/
theorem advanceCursor_frame (s : State) :
    ∃ x y r, advanceCursor s = { s with curTX := x, curTY := y, runState := r } := by
  rcases advanceCursor_cases s with ⟨-, h⟩ | ⟨-, -, h⟩ | ⟨-, -, h⟩
  · exact ⟨s.curTX + 1, s.curTY, s.runState, h⟩
  · exact ⟨0, s.curTY + 1, .ready, h⟩
  · exact ⟨0, s.curTY + 1, s.runState, h⟩

/-- Where the encoder of the run's mode succeeds, what it made of the state. -/
theorem encodeTile_ok {t : List Pixel} {s s1 : State} {n : Nat} (h : encodeTile t s = .ok (s1, n)) :
    (s.mode = .mode4 ∧ n = 0 ∧ ∃ idx P, indexTile s.pal t = .ok (idx, P) ∧
      s1 = { (s.emitAll ((tileRows idx).map fun row => .pat32 (rowWord row))).setPal P with
        tileIndex := s.tileIndex + 1 }) ∨
    (s.mode = .mode0 ∧ ∃ test, testPair s.refPalette t = .ok test ∧
      n = (rolloverIfNeeded (s.warnIf (unmappableSeen s.refPalette t)) test).2 ∧
      s1 = placeTile t test (rolloverIfNeeded (s.warnIf (unmappableSeen s.refPalette t)) test).1) := by
  unfold encodeTile at h
  cases hm : s.mode with
  | mode4 =>
    rw [hm] at h
    simp only [encodeTileM4] at h
    cases hi : indexTile s.pal t with
    | error f => rw [hi] at h; cases h
    | ok r => rw [hi] at h; cases h; exact .inl ⟨rfl, rfl, _, _, rfl, rfl⟩
  | mode0 =>
    rw [hm] at h
    simp only [encodeTileM0] at h
    cases hp : testPair s.refPalette t with
    | error f => rw [hp] at h; cases h
    | ok test => rw [hp] at h; cases h; exact .inr ⟨rfl, _, rfl, rfl, rfl⟩

/-- What a successful encoder leaves alone: everything but the index, the pair, the group position, the warning, the palette and
the end of the sink. -/
theorem encodeTile_frame {t : List Pixel} {s s1 : State} {n : Nat} (h : encodeTile t s = .ok (s1, n)) :
    ∃ ti pc e0 e1 gp w pn pe rs, s1 =
      { s with
        tileIndex := ti, pairCount := pc, pairEntry0 := e0, pairEntry1 := e1, groupPos := gp, warnUnmappable := w
        palCount := pn, palEntry := pe, sink := s.sink ++ rs } := by
  rcases encodeTile_ok h with ⟨-, -, idx, P, -, rfl⟩ | ⟨-, test, -, -, rfl⟩
  · exact ⟨s.tileIndex + 1, s.pairCount, s.pairEntry0, s.pairEntry1, s.groupPos, s.warnUnmappable, _, _, _, rfl⟩
  · rw [State.warnIf_eq]
    generalize (if unmappableSeen s.refPalette t && !s.warnUnmappable then [Record.diag 4] else []) = ds
    generalize hw : ({ s with warnUnmappable := _, sink := s.sink ++ ds } : State) = s0
    obtain ⟨_, _, _, _, sk, e⟩ := rolloverIfNeeded_frame s0 test
    generalize (rolloverIfNeeded s0 test).2 = k at e
    obtain ⟨pc, e0, e1, gp, sk', e'⟩ := placeTile_frame t test (rolloverIfNeeded s0 test).1
    rw [e', e]
    subst hw
    refine ⟨s.tileIndex + BitVec.ofNat 32 k + 1, pc, e0, e1, gp, s.warnUnmappable || unmappableSeen s.refPalette t,
      s.palCount, s.palEntry, ds ++ (sk ++ sk'), ?_⟩
    simp only [List.append_assoc]

/-- Where the encoder of the run's mode faults, which fault it is (R242, R243). -/
theorem encodeTile_error {t : List Pixel} {s : State} {f : FatalFault} (h : encodeTile t s = .error f) :
    (s.mode = .mode4 ∧ f = .paletteOverflow ∧ indexTile s.pal t = .error f) ∨
    (s.mode = .mode0 ∧ f = .tooManyColoursInTile ∧ testPair s.refPalette t = .error f) := by
  unfold encodeTile at h
  cases hm : s.mode with
  | mode4 =>
    rw [hm] at h
    simp only [encodeTileM4] at h
    cases hi : indexTile s.pal t with
    | error g => rw [hi] at h; cases h; exact .inl ⟨rfl, indexTile_error hi, rfl⟩
    | ok r => rw [hi] at h; cases h
  | mode0 =>
    rw [hm] at h
    simp only [encodeTileM0] at h
    cases hp : testPair s.refPalette t with
    | error g => rw [hp] at h; cases h; exact .inr ⟨rfl, testPairFrom_error _ hp, rfl⟩
    | ok test => rw [hp] at h; cases h

/-- What TILE can do (R210). -/
theorem execTile_cases (s : State) :
    (s.runState ≠ .image ∧ execTile s = .next (s.reject .badState)) ∨
    (s.runState = .image ∧
      ((∃ f, encodeTile (cursorTile s) s = .error f ∧ execTile s = .next (s.takeFault f)) ∨
        ∃ s1 n, encodeTile (cursorTile s) s = .ok (s1, n) ∧
          ((0xFFFFFFFF < s.tileIndex.toNat + n + 1 ∧ execTile s = .next (s.takeFault .tileIndexOverflow)) ∨
            (s.tileIndex.toNat + n + 1 ≤ 0xFFFFFFFF ∧ execTile s = .next ((advanceCursor s1).respond .ok 0))))) := by
  unfold execTile
  by_cases hr : s.runState = .image
  · refine .inr ⟨hr, ?_⟩
    rw [if_neg (by simp [hr])]
    cases he : encodeTile (cursorTile s) s with
    | error f => exact .inl ⟨f, rfl, rfl⟩
    | ok r =>
      obtain ⟨s1, n⟩ := r
      refine .inr ⟨s1, n, rfl, ?_⟩
      dsimp only
      by_cases ho : s.tileIndex.toNat + n + 1 > 0xFFFFFFFF
      · exact .inl ⟨ho, if_pos ho⟩
      · exact .inr ⟨Nat.le_of_not_lt ho, if_neg ho⟩
  · exact .inl ⟨hr, if_pos hr⟩

/-- What IMAGE_BEGIN can do (R201); it is refused only where the host has bound no buffer (R275). -/
theorem execImageBegin_cases (w h : Word) (name : List Byte) (s : State) :
    (∃ st, execImageBegin w h name s = .next (s.reject st) ∧
      (st = .badState ∧ s.runState ≠ .ready ∨
        s.runState = .ready ∧ (st = .invalidDimensions ∨ st = .imageBufferShort))) ∨
    (s.runState = .ready ∧ w.toNat % 8 = 0 ∧ h.toNat % 8 = 0 ∧ s.imageBound = false ∧
      execImageBegin w h name s = .refused .imageNotBound) ∨
    (s.runState = .ready ∧ w.toNat % 8 = 0 ∧ h.toNat % 8 = 0 ∧ s.imageBound = true ∧ 4 * w.toNat * h.toNat ≤ s.imgLen ∧
      execImageBegin w h name s = .next ((acceptImage w h name s).respond .ok 0)) := by
  unfold execImageBegin
  by_cases hr : s.runState = .ready
  · rw [if_neg (by simp [hr])]
    by_cases hd : w.toNat % 8 ≠ 0 ∨ h.toNat % 8 ≠ 0
    · exact .inl ⟨_, if_pos hd, .inr ⟨hr, .inl rfl⟩⟩
    · rw [if_neg hd]
      have hd' : w.toNat % 8 = 0 ∧ h.toNat % 8 = 0 := by omega
      by_cases hu : s.imageBound = false
      · exact .inr (.inl ⟨hr, hd'.1, hd'.2, hu, if_pos hu⟩)
      · rw [if_neg hu]
        by_cases hb : s.imgLen < 4 * w.toNat * h.toNat
        · exact .inl ⟨_, if_pos hb, .inr ⟨hr, .inr rfl⟩⟩
        · exact .inr (.inr ⟨hr, hd'.1, hd'.2, Bool.eq_true_of_not_eq_false hu, by omega, if_neg hb⟩)
  · exact .inl ⟨_, if_pos hr, .inl ⟨rfl, hr⟩⟩

/-- Every command answers a next state, but for an IMAGE_BEGIN that finds no buffer bound. -/
theorem exec_total (i : Instr) (s : State) :
    (∃ t, exec i s = .next t) ∨
    ∃ w h name, i = .imageBegin w h name ∧ s.runState = .ready ∧ w.toNat % 8 = 0 ∧ h.toNat % 8 = 0 ∧ s.imageBound = false ∧
      exec i s = .refused .imageNotBound := by
  cases i with
  | runStart m => exact .inl ⟨_, rfl⟩
  | imageBegin w h name =>
    rcases execImageBegin_cases w h name s with ⟨st, e, -⟩ | ⟨h1, h2, h3, h4, e⟩ | ⟨-, -, -, -, -, e⟩
    · exact .inl ⟨_, e⟩
    · exact .inr ⟨w, h, name, rfl, h1, h2, h3, h4, e⟩
    · exact .inl ⟨_, e⟩
  | tile =>
    rcases execTile_cases s with ⟨-, e⟩ | ⟨-, ⟨f, -, e⟩ | ⟨s1, n, -, ⟨-, e⟩ | ⟨-, e⟩⟩⟩ <;> exact .inl ⟨_, e⟩
  | finalize =>
    unfold exec execFinalize
    dsimp only
    split <;> exact .inl ⟨_, rfl⟩
  | readReg n =>
    unfold exec execReadReg
    dsimp only
    split <;> exact .inl ⟨_, rfl⟩

/-- What FINALIZE emits: only the sink changes (R215). -/
theorem finishOutputs_frame (s : State) : ∃ rs, finishOutputs s = s.emitAll rs := by
  unfold finishOutputs
  cases s.mode with
  | mode4 => exact ⟨_, rfl⟩
  | mode0 => exact ⟨_, flush_eq s⟩

/-- What FINALIZE can do (R215). -/
theorem execFinalize_cases (s : State) :
    (s.runState ≠ .ready ∧ execFinalize s = .next (s.reject .badState)) ∨
    (s.runState = .ready ∧
      execFinalize s = .next (State.respond { finishOutputs s with runState := .finalized } .ok 0)) := by
  unfold execFinalize
  by_cases hr : s.runState = .ready
  · exact .inr ⟨hr, if_neg (by simp [hr])⟩
  · exact .inl ⟨hr, if_pos hr⟩

/-- What READ_REG can do (R220). -/
theorem execReadReg_cases (n : BitVec 8) (s : State) :
    (regValue s n = none ∧ execReadReg n s = .next (s.reject .illegalCommand)) ∨
    ∃ v, regValue s n = some v ∧ execReadReg n s = .next (s.respond .ok v) := by
  unfold execReadReg
  cases regValue s n with
  | none => exact .inl ⟨rfl, rfl⟩
  | some v => exact .inr ⟨v, rfl, rfl⟩

end Sys2Proof.Machine
end

