-- ==== Sys2Proof/Laws/Encoding.lean ====
section
/-! SUPPORT. The fields of header and name words. -/

namespace Sys2Proof

/-- Bit `i` of a header: IMM24 below bit 24, OP above (R81). -/
theorem header_getLsbD (op : BitVec 8) (imm : BitVec 24) (i : Nat) :
    (header op imm).getLsbD i = if i < 24 then imm.getLsbD i else op.getLsbD (i - 24) := by
  have := BitVec.getLsbD_append (x := op) (y := imm) (i := i)
  exact this

/-- Bit `i` of a packed name word: byte `i / 8` of the four (R85). -/
theorem packWord_getLsbD (a b c d : Byte) (i : Nat) :
    (packWord a b c d).getLsbD i =
      if i < 8 then a.getLsbD i else if i < 16 then b.getLsbD (i - 8) else if i < 24 then c.getLsbD (i - 16)
      else d.getLsbD (i - 24) := by
  have h1 := BitVec.getLsbD_append (x := d ++ c ++ b) (y := a) (i := i)
  have h2 := BitVec.getLsbD_append (x := d ++ c) (y := b) (i := i - 8)
  have h3 := BitVec.getLsbD_append (x := d) (y := c) (i := i - 8 - 8)
  have h0 : (packWord a b c d).getLsbD i = (d ++ c ++ b ++ a).getLsbD i := rfl
  rw [h0, h1, h2, h3]
  split_ifs <;> first | rfl | omega

theorem wordBytes_packWord (a b c d : Byte) : wordBytes (packWord a b c d) = [a, b, c, d] := by
  simp only [wordBytes, List.cons.injEq, and_true]
  refine ⟨?_, ?_, ?_, ?_⟩ <;>
  · refine BitVec.eq_of_getLsbD_eq fun i hi => ?_
    rw [BitVec.getLsbD_extractLsb', packWord_getLsbD]
    have h1 : ¬ (8 + i < 8) := by omega
    have h2 : 8 + i < 16 := by omega
    have h3 : ¬ (16 + i < 8) := by omega
    have h4 : ¬ (16 + i < 16) := by omega
    have h5 : 16 + i < 24 := by omega
    have h6 : ¬ (24 + i < 8) := by omega
    have h7 : ¬ (24 + i < 16) := by omega
    have h8 : ¬ (24 + i < 24) := by omega
    simp [hi, h1, h2, h3, h4, h5, h6, h7, h8]

theorem wordBytes_length (w : Word) : (wordBytes w).length = 4 := rfl

/-- A name takes one word for each four bytes, the last one filled up. -/
theorem packName_length : ∀ name : List Byte, (packName name).length = (name.length + 3) / 4
  | [] => by simp [packName]
  | [_] => by simp [packName]
  | [_, _] => by simp [packName]
  | [_, _, _] => by simp [packName]
  | a :: b :: c :: d :: rest => by
    simp only [packName, List.length_cons, packName_length rest]
    omega

@[simp] theorem opField_header (op : BitVec 8) (imm : BitVec 24) : opField (header op imm) = op := by
  refine BitVec.eq_of_getLsbD_eq fun i hi => ?_
  rw [opField, BitVec.getLsbD_extractLsb', header_getLsbD]
  simp [hi]

/-- A field that lies inside IMM24 is a field of IMM24. -/
theorem extractLsb'_header (op : BitVec 8) (imm : BitVec 24) (lo n : Nat) (h : lo + n ≤ 24) :
    (header op imm).extractLsb' lo n = imm.extractLsb' lo n := by
  refine BitVec.eq_of_getLsbD_eq fun i hi => ?_
  have : lo + i < 24 := by omega
  rw [BitVec.getLsbD_extractLsb', BitVec.getLsbD_extractLsb', header_getLsbD]
  simp [this]

/-- NAME_LEN of a header is the low 16 bits of its operand field (R84). -/
theorem nameLenField_header (op : BitVec 8) (imm : BitVec 24) : nameLenField (header op imm) = imm.toNat % 65536 := by
  rw [nameLenField, extractLsb'_header _ _ _ _ (by omega)]
  simp

@[simp] theorem immField_header (op : BitVec 8) (imm : BitVec 24) : immField (header op imm) = imm := by
  rw [immField, extractLsb'_header _ _ _ _ (by omega)]
  simp

/-- The decoder on a header with all its payload words: one command, and whatever follows (R90). -/
theorem decode_words {h : Word} {payload rest : List Word} (hl : payload.length = payloadLength h) :
    decode (h :: (payload ++ rest)) = (decodeCommand h payload).map fun i => (i, rest) := by
  have hn : ¬ (payload ++ rest).length < payload.length := by simp
  simp only [decode, ← hl, if_neg hn, List.take_left, List.drop_left]
  cases decodeCommand h payload <;> rfl

/-- The name bytes of a packed name are the name (R85). -/
theorem nameBytes_packName : ∀ name : List Byte, nameBytes name.length (packName name) = name
  | [] => by simp [nameBytes, packName]
  | [_] => by simp [nameBytes, packName, wordBytes_packWord]
  | [_, _] => by simp [nameBytes, packName, wordBytes_packWord]
  | [_, _, _] => by simp [nameBytes, packName, wordBytes_packWord]
  | _ :: _ :: _ :: _ :: rest => by
    have := nameBytes_packName rest
    simp only [nameBytes] at this
    simp [nameBytes, packName, wordBytes_packWord, this]

/-- What a list of words must be that the decoder reads a command from (R90). -/
theorem decode_inv {ws : List Word} {i : Instr} {rest : List Word} (h : decode ws = .ok (i, rest)) :
    ∃ hd pl, ws = hd :: (pl ++ rest) ∧ pl.length = payloadLength hd ∧ decodeCommand hd pl = .ok i := by
  cases ws with
  | nil => cases h
  | cons hd tl =>
    unfold decode at h
    dsimp only at h
    split at h
    · cases h
    · rename_i hl
      split at h
      · rename_i j hj
        cases h
        refine ⟨hd, tl.take (payloadLength hd), by rw [List.take_append_drop], by simp; omega, hj⟩
      · cases h

/-- What a header and its payload must be that the decoder reads a command from (R82 to R91). -/
theorem decodeCommand_inv {h : Word} {pl : List Word} {i : Instr} (hd : decodeCommand h pl = .ok i) :
    (opField h = 1 ∧ h.extractLsb' 1 23 = 0 ∧ i = .runStart (modeOfBit (h.getLsbD 0))) ∨
    (opField h = 2 ∧ h.extractLsb' 16 8 = 0 ∧
      ∃ w ht names, pl = w :: ht :: names ∧ i = .imageBegin w ht (nameBytes (nameLenField h) names)) ∨
    (opField h = 3 ∧ immField h = 0 ∧ i = .tile) ∨ (opField h = 4 ∧ immField h = 0 ∧ i = .finalize) ∨
    (opField h = 5 ∧ h.extractLsb' 8 16 = 0 ∧ i = .readReg (h.extractLsb' 0 8)) := by
  unfold decodeCommand at hd
  split at hd
  · split at hd
    · cases hd; left; exact ⟨by assumption, by assumption, rfl⟩
    · cases hd
  split at hd
  · split at hd
    · split at hd
      · cases hd; right; left; exact ⟨by assumption, by assumption, _, _, _, rfl, rfl⟩
      · cases hd
    · cases hd
  split at hd
  · split at hd
    · cases hd; right; right; left; exact ⟨by assumption, by assumption, rfl⟩
    · cases hd
  split at hd
  · split at hd
    · cases hd; right; right; right; left; exact ⟨by assumption, by assumption, rfl⟩
    · cases hd
  split at hd
  · split at hd
    · cases hd; right; right; right; right; exact ⟨by assumption, by assumption, rfl⟩
    · cases hd
  · cases hd

/-- A header is its OP and its operand field (R81). -/
theorem header_fields (h : Word) : header (opField h) (immField h) = h := by
  refine BitVec.eq_of_getLsbD_eq fun i hi => ?_
  rw [header_getLsbD, opField, immField, BitVec.getLsbD_extractLsb', BitVec.getLsbD_extractLsb']
  split
  · simp [*]
  · rename_i hh; have : i - 24 < 8 := by omega
    have e : 24 + (i - 24) = i := by omega
    simp [this, e]

end Sys2Proof
end

