-- ==== Sys2Proof/Laws/Fetch.lean ====
section
/-! SUPPORT. The command channel: what the host's inputs before a command do, and when a whole command has arrived. -/

namespace Sys2Proof.Machine

/-- What the outside world can do to the state before a command: it changes no field but those of the image memory, unless it
resets the block. -/
theorem hostActs_cases : ∀ (inp : List HostInput) (s : State),
    ∃ (b : State) (m : List Host.Cell) (n : Nat) (bd : Bool) (k : Nat) (rest : List HostInput), (b = s ∨ b = s.powerOn) ∧
      hostActs inp s = { b with imgMem := m, imgLen := n, imageBound := bd, bindings := k, input := rest }
  | [], s => ⟨s, s.imgMem, s.imgLen, s.imageBound, s.bindings, [], .inl rfl, rfl⟩
  | .word w :: rest, s => ⟨s, s.imgMem, s.imgLen, s.imageBound, s.bindings, .word w :: rest, .inl rfl, rfl⟩
  | .awaitResponse :: rest, s => hostActs_cases rest s
  | .bindImage bytes :: rest, s => by
    obtain ⟨b, m, n, bd, k, r, hb, h⟩ := hostActs_cases rest (s.bindImage bytes)
    rcases hb with rfl | rfl
    · exact ⟨s, m, n, bd, k, r, .inl rfl, h⟩
    · exact ⟨s.powerOn, m, n, bd, k, r, .inr rfl, h⟩
  | .powerOn :: rest, s => by
    obtain ⟨b, m, n, bd, k, r, hb, h⟩ := hostActs_cases rest s.powerOn
    exact ⟨s.powerOn, m, n, bd, k, r, .inr rfl, by rw [hostActs, h]; rcases hb with rfl | rfl <;> rfl⟩

/-- The host's inputs before a command keep whatever binding a buffer, resetting the block and setting the channel keep. -/
theorem hostActs_keeps {P : State → Prop} (hb : ∀ s bytes, P s → P (s.bindImage bytes)) (hp : ∀ s, P s → P s.powerOn)
    (hi : ∀ s inp, P s → P (s.setInput inp)) : ∀ (inp : List HostInput) (s : State), P s → P (hostActs inp s)
  | [], s, h => hi s _ h
  | .word _ :: _, s, h => hi s _ h
  | .awaitResponse :: rest, s, h => hostActs_keeps hb hp hi rest s h
  | .bindImage bytes :: rest, s, h => hostActs_keeps hb hp hi rest _ (hb s bytes h)
  | .powerOn :: rest, s, h => hostActs_keeps hb hp hi rest _ (hp s h)

/-- The host's inputs before a command do not look at the channel field they overwrite. -/
theorem hostActs_input : ∀ (inp : List HostInput) (s : State) (x : List HostInput),
    hostActs inp (s.setInput x) = hostActs inp s
  | [], _, _ => rfl
  | .word _ :: _, _, _ => rfl
  | .awaitResponse :: rest, s, x => hostActs_input rest s x
  | .bindImage bytes :: rest, s, x => hostActs_input rest (s.bindImage bytes) x
  | .powerOn :: rest, s, x => hostActs_input rest s.powerOn x

@[simp] theorem hostActs_word (w : Word) (rest : List HostInput) (s : State) :
    hostActs (.word w :: rest) s = s.setInput (.word w :: rest) := rfl

@[simp] theorem hostActs_nil (s : State) : hostActs [] s = s.setInput [] := rfl

/-- Words that are all there are gathered, and what follows them closes the command. -/
theorem gather_words : ∀ (ws got : List Word) (after : List HostInput),
    gather got ws.length (ws.map .word ++ after) = closeCommand (got.reverse ++ ws) after
  | [], got, after => by simp [gather]
  | w :: ws, got, after => by
    simp only [List.length_cons, List.map_cons, List.cons_append, gather]
    rw [gather_words ws (w :: got) after]
    simp

/-- A whole command on the channel is found. -/
theorem arrival_words {h : Word} {payload : List Word} (hl : payload.length = payloadLength h) (after : List HostInput) :
    arrival ((h :: payload).map .word ++ after) = closeCommand (h :: payload) after := by
  have := gather_words payload [h] after
  simpa [arrival, hl] using this

/-- What closing a command can answer: the command, or one of the two broken duties of R275. -/
theorem closeCommand_cases (ws : List Word) (after : List HostInput) :
    (∃ rest, closeCommand ws after = .command ws rest) ∨ closeCommand ws after = .broken .pipelinedIssue ∨
      closeCommand ws after = .broken .imageRewrittenDuringCommand := by
  rcases after with _ | ⟨a, rest⟩
  · exact .inl ⟨_, rfl⟩
  · cases a <;> first | exact .inl ⟨_, rfl⟩ | exact .inr (.inl rfl) | exact .inr (.inr rfl)

/-- The step on a channel that holds a whole command. -/
theorem step_of_words {s : State} {h : Word} {payload : List Word} {after : List HostInput}
    (hl : payload.length = payloadLength h) (hi : s.input = (h :: payload).map .word ++ after) :
    step s = serve s (closeCommand (h :: payload) after) := by
  have hh : hostActs s.input s = s := by
    rw [hi]
    simp only [List.map_cons, List.cons_append, hostActs_word]
    cases s; simp_all [State.setInput]
  unfold step
  rw [hh, hi, arrival_words hl]

/-- What a step can do: the outside world acts; then the block waits, drops a command a reset cut short, executes a command or
rejects an illegal one. -/
theorem step_cases {s t : State} (h : step s = .next t) :
    t = hostActs s.input s ∨ (∃ rest, t = (hostActs s.input s).setInput rest) ∨
      (∃ i rest, exec i ((hostActs s.input s).setInput rest) = .next t) ∨
      ∃ rest, t = ((hostActs s.input s).setInput rest).reject .illegalCommand := by
  unfold step at h
  generalize hostActs s.input s = ready at *
  cases ha : arrival ready.input with
  | waiting => rw [ha] at h; cases h; exact .inl rfl
  | abandoned rest => rw [ha] at h; cases h; exact .inr (.inl ⟨rest, rfl⟩)
  | broken r => rw [ha] at h; cases h
  | command words rest =>
    rw [ha] at h
    simp only [serve, runWords] at h
    split at h
    · exact .inr (.inr (.inl ⟨_, rest, h⟩))
    · cases h; exact .inr (.inr (.inr ⟨rest, rfl⟩))

end Sys2Proof.Machine
end

