-- ==== Sys2Proof/Laws/FirstAppearances.lean ====
section
/-! SUPPORT. Lists in order of first appearance, and that the Mode-4 palette is one (R133). -/

namespace Sys2Proof.Machine

/-- A filter keeps the order of the members it keeps. -/
theorem idxOf_lt_of_filter {α : Type} [DecidableEq α] (p : α → Bool) : ∀ (l : List α) (a b : α), p a = true → p b = true →
    (l.filter p).idxOf a < (l.filter p).idxOf b → l.idxOf a < l.idxOf b
  | [], a, b, _, _, h => by simp at h
  | x :: l, a, b, ha, hb, h => by
    by_cases hx : p x = true
    · rw [List.filter_cons_of_pos hx] at h
      by_cases hxa : x = a
      · subst hxa
        by_cases hxb : x = b
        · subst hxb; omega
        · rw [List.idxOf_cons_self, List.idxOf_cons_ne _ hxb]; omega
      · by_cases hxb : x = b
        · subst hxb; rw [List.idxOf_cons_self] at h; omega
        · rw [List.idxOf_cons_ne _ hxa, List.idxOf_cons_ne _ hxb] at h ⊢
          have := idxOf_lt_of_filter p l a b ha hb (by omega)
          omega
    · rw [List.filter_cons_of_neg hx] at h
      have h1 : x ≠ a := by rintro rfl; exact hx ha
      have h2 : x ≠ b := by rintro rfl; exact hx hb
      rw [List.idxOf_cons_ne _ h1, List.idxOf_cons_ne _ h2]
      have := idxOf_lt_of_filter p l a b ha hb h
      omega

/-- A head and the first appearances of the rest without it. -/
theorem FirstAppearances.cons {α : Type} [DecidableEq α] {q : α} {new l : List α}
    (h : FirstAppearances new (l.filter (· ≠ q))) : FirstAppearances (q :: new) (q :: l) := by
  obtain ⟨h1, h2, h3⟩ := h
  have hq : q ∉ new := fun hq => by simpa using (h2 q).mp hq
  refine ⟨List.nodup_cons.mpr ⟨hq, h1⟩, fun c => ?_, List.pairwise_cons.mpr ⟨fun b hb => ?_, ?_⟩⟩
  · by_cases hc : c = q
    · simp [hc]
    · simp [hc, h2 c]
  · have : q ≠ b := by rintro rfl; exact hq hb
    rw [List.idxOf_cons_self, List.idxOf_cons_ne _ this]; omega
  · refine h3.imp_of_mem fun {a b} ha hb hab => ?_
    have e1 : q ≠ a := by rintro rfl; exact hq ha
    have e2 : q ≠ b := by rintro rfl; exact hq hb
    rw [List.idxOf_cons_ne _ e1, List.idxOf_cons_ne _ e2]
    have := idxOf_lt_of_filter _ l a b (by simpa using e1.symm) (by simpa using e2.symm) hab
    omega

/-- A list has one list of first appearances. -/
theorem FirstAppearances.unique {α : Type} [DecidableEq α] {a b l : List α} (ha : FirstAppearances a l)
    (hb : FirstAppearances b l) : a = b := by
  have hp : a.Perm b := (List.perm_ext_iff_of_nodup ha.1 hb.1).mpr fun c => (ha.2.1 c).trans (hb.2.1 c).symm
  refine List.Perm.eq_of_pairwise (le := fun a b => l.idxOf a < l.idxOf b) ?_ ha.2.2 hb.2.2 hp
  intro x y _ _ h1 h2; omega

/-- What a tile's scan does to the palette: the new colours join it in order of first appearance (R133, R180). -/
theorem indexTile_order : ∀ {t : List Pixel} {P P' : List (BitVec 6)} {idx : List (BitVec 4)},
    indexTile P t = .ok (idx, P') →
    ∃ new, P' = P ++ new ∧ FirstAppearances new ((t.filterMap classifyM4).filter (· ∉ P))
  | [], P, P', idx, h => by
    cases h; exact ⟨[], by simp, ⟨List.nodup_nil, by simp, List.Pairwise.nil⟩⟩
  | px :: rest, P, P', idx, h => by
    unfold indexTile at h
    split at h
    · cases h
    rename_i P1 i hpx
    split at h
    · cases h
    rename_i is P2 hrest
    cases h
    obtain ⟨new, rfl, hfa⟩ := indexTile_order hrest
    unfold indexPixel at hpx
    split at hpx
    · rename_i hn
      cases hpx
      exact ⟨new, rfl, by rwa [List.filterMap_cons_none hn]⟩
    · rename_i q hq
      by_cases hm : q ∈ P
      · unfold addOrLookup at hpx
        split at hpx
        · cases hpx
          exact ⟨new, rfl, by rw [List.filterMap_cons_some hq, List.filter_cons_of_neg (by simp [hm])]; exact hfa⟩
        · rename_i hnone
          have := List.findIdx?_eq_none_iff.mp hnone q hm
          simp at this
      · unfold addOrLookup at hpx
        split at hpx
        · rename_i k hk
          obtain ⟨hlt, heq, -⟩ := List.findIdx?_eq_some_iff_getElem.mp hk
          exact absurd (by rw [← (by simpa using heq : P[k] = q)]; exact List.getElem_mem _) hm
        split at hpx
        · cases hpx
        · cases hpx
          refine ⟨q :: new, by simp, ?_⟩
          rw [List.filterMap_cons_some hq, List.filter_cons_of_pos (by simp [hm])]
          apply FirstAppearances.cons
          have : (((rest.filterMap classifyM4).filter (· ∉ P)).filter (· ≠ q)) =
              (rest.filterMap classifyM4).filter (· ∉ P ++ [q]) := by
            rw [List.filter_filter]
            congr 1; funext x; simp [and_comm, not_or]
          rw [this]; exact hfa

end Sys2Proof.Machine
end

