-- ==== Sys2Proof/Laws/PerInstr.lean ====
section
/-! SUPPORT. Facts stated for each command: the encoder writes as many words as the header announces (R90). -/

namespace Sys2Proof.Laws.HeaderLength

/-- The encoder's words of a well-formed command are its header and as many payload words as R90 reads from the header. -/
def Statement (i : Instr) : Prop :=
  i.wellFormed = true → ∃ h payload, encode i = h :: payload ∧ payload.length = payloadLength h

theorem runStart (mode : Mode) : Statement (.runStart mode) := fun _ => ⟨_, [], rfl, by simp [payloadLength]⟩

theorem imageBegin (w h : Word) (name : List Byte) : Statement (.imageBegin w h name) := fun hw => by
  have hn : name.length ≤ 65535 := by simpa [Instr.wellFormed, nameFits] using hw
  refine ⟨_, _, rfl, ?_⟩
  rw [payloadLength, opField_header, if_pos rfl, nameLenField_header]
  simp only [List.length_cons, packName_length, BitVec.toNat_ofNat]
  omega

theorem tile : Statement .tile := fun _ => ⟨_, [], rfl, by simp [payloadLength]⟩

theorem finalize : Statement .finalize := fun _ => ⟨_, [], rfl, by simp [payloadLength]⟩

theorem readReg (reg : BitVec 8) : Statement (.readReg reg) := fun _ => ⟨_, [], rfl, by simp [payloadLength]⟩

end Sys2Proof.Laws.HeaderLength
end

