-- ==== Sys2Proof/Laws/Registers.lean ====
section
/-! SUPPORT. Which register numbers have a value (R36, R89). -/

namespace Sys2Proof.Machine

/-- READ_REG finds a value for exactly the implemented register numbers (R36, R89). -/
theorem regValue_isSome (s : State) (n : BitVec 8) : (regValue s n).isSome = regImplemented n := by
  unfold regValue regImplemented
  generalize n.toNat = k
  split
  all_goals try rfl
  rename_i h0 h1 h2 h3 h4 h5 h6 h7 h8 h9 h10 h11 h12 h13
  have h : ¬ k < 14 := fun hk => by
    have : k = 0 ∨ k = 1 ∨ k = 2 ∨ k = 3 ∨ k = 4 ∨ k = 5 ∨ k = 6 ∨ k = 7 ∨ k = 8 ∨ k = 9 ∨ k = 10 ∨ k = 11 ∨ k = 12 ∨
        k = 13 := by omega
    simp_all
  by_cases hk : 16 ≤ k ∧ k < 32
  · rw [if_pos hk]; simp [h, hk.1, hk.2]
  · rw [if_neg hk]
    simp only [Option.isSome_none]
    symm
    simpa [h] using hk

end Sys2Proof.Machine
end

