-- ==== Sys2Proof/Laws/Rows.lean ====
section
/-! SUPPORT. The bits of a pattern row: what the scans of RowByte and Plane put at each bit (R181, R191). -/

namespace Sys2Proof.Machine

/-- Eight bits laid out as a pattern row, column 0 in bit 7: bit 7 - x is the bit of column x. -/
theorem rowScan_getLsbD (f : Nat → Bool) {x : Nat} (hx : x < 8) :
    ((List.range 8).foldl (fun (acc : Byte) x => acc ||| (BitVec.ofBool (f x)).setWidth 8 <<< (7 - x)) 0).getLsbD (7 - x) =
      f x := by
  have hr : List.range 8 = [0, 1, 2, 3, 4, 5, 6, 7] := rfl
  rw [hr]
  simp only [List.foldl]
  obtain rfl | rfl | rfl | rfl | rfl | rfl | rfl | rfl : x = 0 ∨ x = 1 ∨ x = 2 ∨ x = 3 ∨ x = 4 ∨ x = 5 ∨ x = 6 ∨ x = 7 := by
    omega
  all_goals
    generalize f 0 = b0, f 1 = b1, f 2 = b2, f 3 = b3, f 4 = b4, f 5 = b5, f 6 = b6, f 7 = b7
    revert b0 b1 b2 b3 b4 b5 b6 b7
    decide +kernel

/-- Bit 7 - x of a plane byte is bit p of the index of column x (R181). -/
theorem planeByte_getLsbD (row : List (BitVec 4)) (p : Nat) {x : Nat} (hx : x < 8) :
    (planeByte row p).getLsbD (7 - x) = (row[x]?.getD 0).getLsbD p :=
  rowScan_getLsbD (fun x => (row[x]?.getD 0).getLsbD p) hx

/-- Bit 7 - x of a Mode-0 row byte says whether column x has the foreground colour (R191). -/
theorem rowByte_getLsbD (ref : Vector Rgb 16) (pair : List (BitVec 4)) (row : List Pixel) {x : Nat} (hx : x < 8) :
    (rowByte ref pair row).getLsbD (7 - x) =
      (pair.length == 2 && (row[x]?.map fun px => (classifyM0 ref px).1) == pair[1]?) :=
  rowScan_getLsbD (fun x => pair.length == 2 && (row[x]?.map fun px => (classifyM0 ref px).1) == pair[1]?) hx

end Sys2Proof.Machine
end

