-- ==== Sys2Proof/Machine/Assembler.lean ====
section
/-! DEFINITION. The assembler syntax (R97) and the pseudo-instruction ENCODE_IMAGE (R98): a line of text, as bytes, to the
commands it stands for. The block does not see text: its words are what `encode` writes for these commands.
What R97 leaves unsaid of a line of text is log entry 21 (DESIGN CHOICE). -/

namespace Sys2Proof.Machine

/-- ASCII text as bytes (R15). -/
def ascii (text : List Char) : List Byte := text.map fun c => BitVec.ofNat 8 c.toNat

/-- The value of a hexadecimal digit. -/
def digitValue (b : Byte) : Option Nat :=
  if 0x30 ≤ b ∧ b ≤ 0x39 then some (b.toNat - 0x30)
  else if 0x41 ≤ b ∧ b ≤ 0x46 then some (b.toNat - 0x37)
  else if 0x61 ≤ b ∧ b ≤ 0x66 then some (b.toNat - 0x57)
  else none

/-- The digits of a number in a base, most significant first. -/
def numberFrom (base acc : Nat) : List Byte → Option Nat
  | [] => some acc
  | b :: rest =>
    match digitValue b with
    | some d => if d < base then numberFrom base (base * acc + d) rest else none
    | none => none

/-- A decimal or 0x hexadecimal number (R97). -/
def number (text : List Byte) : Option Nat :=
  if text = [] ∨ text = ascii ['0', 'x'] then none
  else if text.take 2 = ascii ['0', 'x'] then numberFrom 16 0 (text.drop 2)
  else numberFrom 10 0 text

/-- A number that fits a field of `n` bits; no operand is cut (R91). -/
def field (n : Nat) (text : List Byte) : Option (BitVec n) :=
  match number text with
  | some k => if k < 2 ^ n then some (BitVec.ofNat n k) else none
  | none => none

/-- The tokens of a line. -/
inductive AsmToken where
  /-- A mnemonic or an unquoted operand. -/
  | word (text : List Byte)
  /-- A quoted name, its escapes replaced. -/
  | name (bytes : List Byte)
  | comma
deriving DecidableEq, Repr

/-- Where the scan of a line stands; each `acc` holds the bytes so far, the latest first. -/
inductive LexState where
  | between
  | inWord (acc : List Byte)
  | inName (acc : List Byte)
  | escape (acc : List Byte)
  | escapeHigh (acc : List Byte)
  | escapeLow (acc : List Byte) (high : Nat)
deriving DecidableEq, Repr

/-- Space and tab. -/
def isBlank (b : Byte) : Bool := b == 0x20 || b == 0x09

/-- The tokens of a line: a ; starts a comment, and in a name \xHH denotes one byte (R97). -/
def lexLine : LexState → List Byte → Option (List AsmToken)
  | .between, [] => some []
  | .between, b :: rest =>
    if isBlank b then lexLine .between rest
    else if b = 0x3B then some []
    else if b = 0x2C then (lexLine .between rest).map (.comma :: ·)
    else if b = 0x22 then lexLine (.inName []) rest
    else lexLine (.inWord [b]) rest
  | .inWord acc, [] => some [.word acc.reverse]
  | .inWord acc, b :: rest =>
    if isBlank b then (lexLine .between rest).map (.word acc.reverse :: ·)
    else if b = 0x3B then some [.word acc.reverse]
    else if b = 0x2C then (lexLine .between rest).map (.word acc.reverse :: .comma :: ·)
    else lexLine (.inWord (b :: acc)) rest
  | .inName acc, b :: rest =>
    if b = 0x22 then (lexLine .between rest).map (.name acc.reverse :: ·)
    else if b = 0x5C then lexLine (.escape acc) rest
    else lexLine (.inName (b :: acc)) rest
  | .escape acc, b :: rest => if b = 0x78 then lexLine (.escapeHigh acc) rest else none
  | .escapeHigh acc, b :: rest =>
    match digitValue b with
    | some d => lexLine (.escapeLow acc d) rest
    | none => none
  | .escapeLow acc high, b :: rest =>
    match digitValue b with
    | some d => lexLine (.inName (BitVec.ofNat 8 (16 * high + d) :: acc)) rest
    | none => none
  | .inName _, [] => none
  | .escape _, [] => none
  | .escapeHigh _, [] => none
  | .escapeLow _ _, [] => none

/-- The mode operand of RUN_START (R97). -/
def modeOperand (text : List Byte) : Option Mode :=
  if text = ascii ['m', '4'] then some .mode4 else if text = ascii ['m', '0'] then some .mode0 else none

/-- The commands of a line with W, H and a name: IMAGE_BEGIN or ENCODE_IMAGE (R97, R98). -/
def imageLine (mnemonic : List Byte) (w h : Word) (name : List Byte) : Option (List Instr) :=
  if nameFits name = false then none
  else if mnemonic = ascii ['I', 'M', 'A', 'G', 'E', '_', 'B', 'E', 'G', 'I', 'N'] then some [.imageBegin w h name]
  else if mnemonic = ascii ['E', 'N', 'C', 'O', 'D', 'E', '_', 'I', 'M', 'A', 'G', 'E'] then expandEncodeImage w h name
  else none

/-- The commands a line's tokens stand for (R97, R98); an empty line stands for none. -/
def parseLine : List AsmToken → Option (List Instr)
  | [] => some []
  | [.word m] =>
    if m = ascii ['T', 'I', 'L', 'E'] then some [.tile]
    else if m = ascii ['F', 'I', 'N', 'A', 'L', 'I', 'Z', 'E'] then some [.finalize]
    else none
  | [.word m, .word a] =>
    if m = ascii ['R', 'U', 'N', '_', 'S', 'T', 'A', 'R', 'T'] then (modeOperand a).map fun mode => [.runStart mode]
    else if m = ascii ['R', 'E', 'A', 'D', '_', 'R', 'E', 'G'] then (field 8 a).map fun n => [.readReg n]
    else none
  | [.word m, .word w, .comma, .word h, .comma, .name s] =>
    match field 32 w, field 32 h with
    | some wv, some hv => imageLine m wv hv s
    | _, _ => none
  | _ => none

/-- The commands of one line of assembler text; `none` where the line has no meaning in R97 and R98. -/
def assembleLine (text : List Byte) : Option (List Instr) :=
  match lexLine .between text with
  | some tokens => parseLine tokens
  | none => none

/-- The command words of one line (R97): what the assembler writes. -/
def assembleWords (text : List Byte) : Option (List Word) := (assembleLine text).map fun is => is.flatMap encode

end Sys2Proof.Machine
end

