-- ==== Sys2Proof/Tests/Slice0.lean ====
section
/-! SUPPORT. Checks of the model against the spec's own vectors (95_test_vectors.md), and for each statement with hypotheses a
concrete state and operands that meet them. -/

namespace Sys2Proof.Tests

open Sys2Proof.Machine

-- One theorem at a time: the kernel evaluates each of these, and many at once ask for too much memory.
set_option Elab.async false

/-! ### Helpers -/

/-- What a field of the next state is, if there is one. -/
def after {α : Type} (f : State → α) : Host.Outcome State Fault Refusal → Option α
  | .next t => some (f t)
  | _ => none

theorem next_of_after {α : Type} {f : State → α} {o : Host.Outcome State Fault Refusal} {a : α} (h : after f o = some a) :
    ∃ t, o = .next t ∧ f t = a := by
  cases o with
  | next t => exact ⟨t, rfl, Option.some.inj h⟩
  | fault r => cases h
  | refused r => cases h

/-- Sixteen pairwise different reference colours, so that each P(i) of 95_test_vectors.md has a pixel. -/
def testPalette : Vector Rgb 16 :=
  #v[⟨0, 7, 9⟩, ⟨1, 7, 9⟩, ⟨2, 7, 9⟩, ⟨3, 7, 9⟩, ⟨4, 7, 9⟩, ⟨5, 7, 9⟩, ⟨6, 7, 9⟩, ⟨7, 7, 9⟩, ⟨8, 7, 9⟩, ⟨9, 7, 9⟩,
    ⟨10, 7, 9⟩, ⟨11, 7, 9⟩, ⟨12, 7, 9⟩, ⟨13, 7, 9⟩, ⟨14, 7, 9⟩, ⟨15, 7, 9⟩]

/-- P(i): an opaque pixel of reference colour i. -/
def p (i : Nat) : List Byte := [BitVec.ofNat 8 i, 7, 9, 255]

/-- U: an opaque pixel that matches no reference colour. -/
def u : List Byte := [1, 2, 3, 255]

/-- Tr: a transparent pixel. -/
def tr : List Byte := [0, 0, 0, 0]

/-- An active 8 by 8 image whose first pixels are given; the others are transparent. -/
def image (m : Mode) (pixels : List (List Byte)) : State :=
  State.bindImage
    { State.reset with
      runState := .image, mode := m, imgW := 8, imgH := 8, imageCount := 1, refPalette := testPalette }
    (pixels.flatten ++ List.replicate (256 - 4 * pixels.length) 0)

/-- A Mode-0 image in an open group: the start states of 95_test_vectors.md 2.5. -/
def openGroup (pair : List (BitVec 4)) (pos : BitVec 3) (index : Word) (pixels : List (List Byte)) : State :=
  { (image .mode0 pixels).setPair pair with groupPos := pos, tileIndex := index }

/-- A Mode-4 image with a palette. -/
def withPalette (P : List (BitVec 6)) (pixels : List (List Byte)) : State := (image .mode4 pixels).setPal P

/-- A run in READY, with an empty buffer bound. -/
def ready (m : Mode) : State := State.bindImage { State.reset with runState := .ready, mode := m } []

/-- A faulted run. -/
def faulted : State := { State.reset with runState := .faulted, mode := .mode4, faultCode := 3 }

/-- The sixteen palette colours 0x00 .. 0x0F. -/
def fullPalette : List (BitVec 6) := (List.range 16).map (BitVec.ofNat 6)

/-! ### Well-formedness: an ill-formed term for each check -/

theorem test_name_too_long_refused : (Instr.imageBegin 8 8 (List.replicate 65536 0)).wellFormed = false := by
  rw [Instr.wellFormed, nameFits, List.length_replicate]; decide

theorem test_longest_name_accepted : (Instr.imageBegin 8 8 (List.replicate 65535 0)).wellFormed = true := by
  rw [Instr.wellFormed, nameFits, List.length_replicate]; decide

theorem test_reserved_registers_refused :
    ([14, 15, 32, 255].map fun n => (Instr.readReg n).wellFormed) = [false, false, false, false] := by decide

/-! ### Decoding: words written out from 30_encoding.md, and the vectors of 95_test_vectors.md 2.7 -/

/-- OP 0000 0001, MBZ 23 zeros, MODE 1 (R83). -/
theorem test_decode_runStart : decode [0b00000001_00000000_00000000_00000001#32] = .ok (.runStart .mode0, []) := by decide

/-- OP 0000 0001, MODE 0 (R83). -/
theorem test_decode_runStart_mode4 : decode [0b00000001_00000000_00000000_00000000#32] = .ok (.runStart .mode4, []) := by decide

/-- OP 0000 0010, MBZ 8 zeros, NAME_LEN 5; W = 72, H = 8; "a.pn", "g" (R84, R85). -/
theorem test_decode_imageBegin :
    decode [0b00000010_00000000_00000000_00000101#32, 72, 8, 0x6E702E61, 0x00000067, 0x03000000] =
      .ok (.imageBegin 72 8 [0x61, 0x2E, 0x70, 0x6E, 0x67], [0x03000000]) := by decide +kernel

/-- The padding bytes of the last name word are ignored (R85). -/
theorem test_decode_imageBegin_padding :
    decode [0x02000002, 8, 8, 0xFFFF6B6F] = .ok (.imageBegin 8 8 [0x6F, 0x6B], []) := by decide +kernel

/-- OP 0000 0011 and 24 zeros (R86). -/
theorem test_decode_tile : decode [0b00000011_00000000_00000000_00000000#32] = .ok (.tile, []) := by decide

/-- OP 0000 0100 and 24 zeros (R87). -/
theorem test_decode_finalize : decode [0b00000100_00000000_00000000_00000000#32] = .ok (.finalize, []) := by decide

/-- OP 0000 0101, MBZ 16 zeros, REG 0001 1111 (R88). -/
theorem test_decode_readReg : decode [0b00000101_00000000_00000000_00011111#32] = .ok (.readReg 31, []) := by decide

/-- The illegal headers of 95_test_vectors.md 2.7. -/
theorem test_decode_illegal :
    decode [0x00000000] = .error (.reservedOpcode 0) ∧ decode [0x06000000] = .error (.reservedOpcode 6) ∧
    decode [0xFF000000] = .error (.reservedOpcode 255) ∧ decode [0x01000002] = .error (.mustBeZero 0x01000002) ∧
    decode [0x02010000, 0, 0] = .error (.mustBeZero 0x02010000) ∧ decode [0x03000001] = .error (.mustBeZero 0x03000001) ∧
    decode [0x04800000] = .error (.mustBeZero 0x04800000) ∧ decode [0x05000100] = .error (.mustBeZero 0x05000100) := by
  decide

/-- The name words of 95_test_vectors.md 2.7: "strip.png", "ok" and "more". -/
theorem test_name_packing :
    packName [0x73, 0x74, 0x72, 0x69, 0x70, 0x2E, 0x70, 0x6E, 0x67] = [0x69727473, 0x6E702E70, 0x00000067] ∧
    packName [0x6F, 0x6B] = [0x00006B6F] ∧ packName [0x6D, 0x6F, 0x72, 0x65] = [0x65726F6D] := by decide +kernel

/-- The opcode table numbers the first word's bits 31..0. -/
theorem test_table_words :
    decodeTableWord 32 0x01000001 = some (.runStart .mode0) ∧ decodeTableWord 32 0x05000003 = some (.readReg 3) ∧
    decodeTableWord 32 0x02000004 = some (.imageBegin 0 0 [0, 0, 0, 0]) ∧
    decodeTableWord 96 0x000000080000001002000000 = some (.imageBegin 16 8 []) := by decide +kernel

/-- The line of program P1 in 95_test_vectors.md, IMAGE_BEGIN 8, 8, "red.png", with its comment, to the words written there. -/
theorem test_assemble_imageBegin :
    assembleWords (ascii ['I', 'M', 'A', 'G', 'E', '_', 'B', 'E', 'G', 'I', 'N', ' ', '8', ',', ' ', '0', 'x', '8', ','] ++
      [0x20, 0x22] ++ ascii ['r', 'e', 'd', '.', 'p', 'n', 'g'] ++ [0x22] ++ ascii [' ', ';', ' ', 'x']) =
      some [0x02000007, 8, 8, 0x2E646572, 0x00676E70] := by decide +kernel

/-- R97, R98: a hexadecimal register number, an escaped name byte, and the two tiles of a 16 by 8 image; 9 is no multiple of 8. -/
theorem test_assemble_lines :
    assembleWords (ascii ['R', 'E', 'A', 'D', '_', 'R', 'E', 'G', ' ', '0', 'x', '1', 'F']) = some [0x0500001F] ∧
    assembleLine (ascii ['R', 'U', 'N', '_', 'S', 'T', 'A', 'R', 'T', ' ', 'm', '0']) = some [.runStart .mode0] ∧
    assembleLine (ascii ['E', 'N', 'C', 'O', 'D', 'E', '_', 'I', 'M', 'A', 'G', 'E', ' ', '1', '6', ',', ' ', '8', ',', ' '] ++
      [0x22, 0x5C] ++ ascii ['x', 'C', '3'] ++ [0x22]) = some [.imageBegin 16 8 [0xC3], .tile, .tile] ∧
    assembleLine (ascii ['E', 'N', 'C', 'O', 'D', 'E', '_', 'I', 'M', 'A', 'G', 'E', ' ', '9', ',', ' ', '8', ',', ' '] ++
      [0x22, 0x22]) = none := by decide +kernel

/-! ### One step -/

/-- A program's first command runs as the first after reset. -/
theorem test_first_command :
    after (fun t => (t.runState, t.mode, t.responses, t.input)) (step (State.reset.withFetchWord 32 0x01000001)) =
      some (.ready, .mode0, [⟨.ok, 0⟩], []) := by decide +kernel

/-- The two payload words of an illegal IMAGE_BEGIN are consumed (R90). -/
theorem test_illegal_command_consumed :
    after (fun t => (t.runState, t.responses, t.input))
      (step { State.reset with input := [.word 0x02010000, .word 1, .word 2, .awaitResponse, .word 3] }) =
      some (.idle, [⟨.illegalCommand, 0⟩], [.word 3]) := by decide +kernel

/-! ### Commands -/

/-- 95_test_vectors.md 2.6: RUN_START m0 from FAULTED. -/
theorem test_runStart_from_faulted :
    after (fun t => (t.responses, t.runState, t.mode, t.tileIndex, t.faultCode)) (exec (.runStart .mode0) faulted) =
      some ([⟨.ok, 0⟩], .ready, .mode0, 0, 0) := by decide +kernel

/-- 95_test_vectors.md 2.6, S1. -/
theorem test_imageBegin_accepted :
    after (fun t => (t.responses, t.sink, t.imgStart, t.imageCount, t.runState))
      (exec (.imageBegin 16 8 [0x6F, 0x6B]) { ready .mode4 with tileIndex := 5, imageCount := 1, imgLen := 512 }) =
      some ([⟨.ok, 0⟩], [.sym [0x4F, 0x4B] 5], 5, 2, .image) := by decide +kernel

/-- 95_test_vectors.md 2.6, S3 and S4: the dimensions are checked before the buffer. -/
theorem test_imageBegin_errors :
    after (·.responses) (exec (.imageBegin 12 7 []) (ready .mode4)) = some [⟨.invalidDimensions, 0⟩] ∧
    after (·.responses) (exec (.imageBegin 8 8 []) { ready .mode4 with imgLen := 255 }) = some [⟨.imageBufferShort, 0⟩] := by
  decide +kernel

/-- 95_test_vectors.md 2.4, M4-T2. -/
theorem test_tile_mode4 :
    after (fun t => (t.sink, t.pal, t.tileIndex, t.runState, t.curTX, t.curTY))
      (exec .tile (withPalette [0x3F] [[0xFF, 0, 0, 0xFF], [0xFF, 0xFF, 0xFF, 0xFF], [0, 0xFF, 0, 1]])) =
      some (.pat32 0x00002080 :: List.replicate 7 (.pat32 0), [0x3F, 0x03, 0x0C], 1, .ready, 0, 1) := by decide +kernel

/-- 95_test_vectors.md 2.5, V18: a rollover. -/
theorem test_tile_mode0_rollover :
    after (fun t => (t.sink, t.pair, t.groupPos, t.tileIndex)) (exec .tile (openGroup [4] 3 3 [p 15, p 9])) =
      some (List.replicate 40 (.pat8 0) ++ [.ctb 0x04, .pat8 0x40] ++ List.replicate 7 (.pat8 0), [15, 9], 1, 9) := by
  decide +kernel

/-- 95_test_vectors.md 2.2, PE3. -/
theorem test_finalize_mode4 :
    after (fun t => (t.sink, t.runState)) (exec .finalize ((ready .mode4).setPal [0x3F, 0x39])) =
      some ([.pal6 0x3F, .pal6 0x39, .pal12 0xFFF, .pal12 0xFA5] ++ List.replicate 14 (.pal12 0), .finalized) := by
  decide +kernel

/-- 95_test_vectors.md 2.3, F3. -/
theorem test_finalize_mode0 :
    after (fun t => (t.sink, t.runState))
      (exec .finalize { (ready .mode0).setPair [6, 7] with groupPos := 1, tileIndex := 9 }) =
      some ([.ctb 0x76], .finalized) := by decide +kernel

/-- 95_test_vectors.md 2.6: PAIR_STATE and a reserved register. -/
theorem test_readReg_pair :
    after (·.responses) (exec (.readReg 3) (openGroup [4, 15] 3 3 [])) = some [⟨.ok, 0x00030F42⟩] ∧
    after (·.responses) (exec (.readReg 14) (openGroup [4, 15] 3 3 [])) = some [⟨.illegalCommand, 0⟩] := by decide +kernel

/-- 95_test_vectors.md 2.6: STATUS of a finalized Mode-0 run with the warning set. -/
theorem test_readReg_status :
    after (·.responses) (exec (.readReg 0) { ready .mode0 with runState := .finalized, warnUnmappable := true }) =
      some [⟨.ok, 0x0000001B⟩] := by decide +kernel

/-! ### Operations: the vectors of 95_test_vectors.md 2.1 to 2.6 -/

theorem test_quantize :
    classifyM4 ⟨0x40, 0x80, 0xC0, 0xFF⟩ = some 0x39 ∧ classifyM4 ⟨0x3F, 0x7F, 0xBF, 0xFF⟩ = some 0x24 ∧
    classifyM4 ⟨0, 0xFF, 0, 1⟩ = some 0x0C ∧ classifyM4 ⟨0xFF, 0xFF, 0xFF, 0⟩ = none := by decide +kernel

theorem test_classifyM0 :
    classifyM0 testPalette ⟨4, 7, 9, 1⟩ = (4, false) ∧ classifyM0 testPalette ⟨1, 2, 3, 255⟩ = (0, true) ∧
    classifyM0 testPalette ⟨4, 7, 9, 0⟩ = (0, false) := by decide +kernel

theorem test_addOrLookup :
    addOrLookup [0x3F] 0x03 = .ok ([0x3F, 0x03], 1) ∧ addOrLookup fullPalette 0x0F = .ok (fullPalette, 15) ∧
    addOrLookup fullPalette 0x10 = .error .paletteOverflow := by decide +kernel

theorem test_conv12 :
    [0x00, 0x03, 0x0C, 0x30, 0x3F, 0x39, 0x24, 0x15, 0x2A].map conv12 =
      [0x000, 0x00F, 0x0F0, 0xF00, 0xFFF, 0xFA5, 0xA50, 0x555, 0xAAA] := by decide +kernel

theorem test_rowWord :
    rowWord [0, 1, 2, 3, 4, 5, 6, 7] = 0x000F3355 ∧ rowWord [8, 9, 10, 11, 12, 13, 14, 15] = 0xFF0F3355 ∧
    rowWord [5, 0, 0, 0, 0, 0, 0, 0] = 0x00800080 ∧ unpackRow 0x000F3355 = [0, 1, 2, 3, 4, 5, 6, 7] := by decide +kernel

theorem test_pair :
    merge [4] [15, 4] = [4, 15] ∧ merge [] [15, 4] = [15, 4] ∧ compatible [4] [6, 7] = false ∧
    compatible [4] [9, 4] = true ∧ ctByte [4, 15] = 0xF4 ∧ ctByte [4] = 0x04 := by decide +kernel

/-- "My Font-2.png", ".png" and "a.b.c". -/
theorem test_sanitize :
    sanitize [0x4D, 0x79, 0x20, 0x46, 0x6F, 0x6E, 0x74, 0x2D, 0x32, 0x2E, 0x70, 0x6E, 0x67] =
      [0x4D, 0x59, 0x5F, 0x46, 0x4F, 0x4E, 0x54, 0x5F, 0x32] ∧
    sanitize [0x2E, 0x70, 0x6E, 0x67] = [] ∧ sanitize [0x61, 0x2E, 0x62, 0x2E, 0x63] = [0x41, 0x5F, 0x42] := by decide +kernel

theorem test_memory_canonical :
    Memory.wf State.reset.imgMem = true ∧ (image .mode4 [[0, 5, 0, 7]]).imgMem = [(1, 5), (3, 7)] := by decide +kernel

/-! ### Witnesses: states and operands that meet the hypotheses of each statement -/

theorem witness_DecodeEncodeRoundTrip :
    (Instr.imageBegin 8 8 (List.replicate 65535 0)).wellFormed = true ∧ (Instr.readReg 31).wellFormed = true ∧
    (Instr.readReg 13).wellFormed = true :=
  ⟨test_longest_name_accepted, rfl, rfl⟩

theorem witness_DecodedWordsAreTheEncoders :
    decode [0x02000005, 8, 8, 0x6E702E61, 0x00000067] = .ok (.imageBegin 8 8 [0x61, 0x2E, 0x70, 0x6E, 0x67], []) ∧
    ([0x61, 0x2E, 0x70, 0x6E, 0x67] : List Byte).length % 4 = 1 ∧
    (0xABCDEF67 : Word).toNat % 2 ^ (8 * 1) = (0x00000067 : Word).toNat % 2 ^ (8 * 1) ∧
    decode [0x02000004, 8, 8, 0x65726F6D] = .ok (.imageBegin 8 8 [0x6D, 0x6F, 0x72, 0x65], []) := by decide +kernel

theorem witness_IllegalEncodingRejected :
    [(0 : Word), 0].length = payloadLength 0x02010000 ∧ illegalHeader 0x02010000 = true ∧
    issues { State.reset with input := [.word 0x02010000, .word 0, .word 0, .awaitResponse] } 0x02010000 [0, 0] [] ∧
    illegalHeader 0x0500000E = true ∧ illegalHeader 0x0500000D = false ∧ illegalHeader 0x05000020 = true ∧
    illegalHeader 0x0500001F = false ∧ illegalHeader 0x01000001 = false ∧ illegalHeader 0x06000000 = true := by
  unfold issues; decide +kernel

theorem witness_CommandLengthFromHeader :
    [(8 : Word), 8, 0x6E702E61, 0x67].length = 2 + ((0x02000005 : Word).toNat % 2 ^ 16 + 3) / 4 ∧
    (0x02000005 : Word).toNat / 2 ^ 24 = 2 ∧ (0x03000000 : Word).toNat / 2 ^ 24 ≠ 2 ∧
    issues { State.reset with
      input := [.word 0x02000005, .word 8, .word 8, .word 0x6E702E61, .word 0x67, .awaitResponse] }
      0x02000005 [8, 8, 0x6E702E61, 0x67] [] ∧
    issues { State.reset with input := [.word 0x03000000, .awaitResponse] } 0x03000000 [] [] := by
  unfold issues; decide +kernel

theorem witness_StepRunsDecodedCommand :
    ([] : List Word).length = payloadLength 0x03000000 ∧ decode [0x03000000] = .ok (.tile, []) ∧
    ({ image .mode4 [] with input := [.word 0x03000000, .awaitResponse] } : State).input =
      [(0x03000000 : Word)].map .word ++ [.awaitResponse] := by decide +kernel

theorem witness_OneResponsePerCommand :
    ([] : List Word).length = payloadLength 0x05000001 ∧
    issues { ready .mode4 with tileIndex := 5, input := [.word 0x05000001, .awaitResponse] } 0x05000001 [] [] ∧
    decode [0x05000001] = .ok (.readReg 1, []) ∧ regValue { ready .mode4 with tileIndex := 5 } 1 = some 5 ∧
    after (·.responses) (step { ready .mode4 with tileIndex := 5, input := [.word 0x05000001, .awaitResponse] }) =
      some [⟨.ok, 5⟩] := by
  unfold issues; decide +kernel

theorem witness_channel :
    State.reset.input = [] ∧ ({ State.reset with input := [.powerOn] } : State).input = .powerOn :: [] ∧
    ({ faulted with input := [.powerOn, .word 0x05000000] } : State).input = .powerOn :: [.word 0x05000000] ∧
    ({ State.reset with input := [.bindImage [1, 2]] } : State).input = .bindImage [1, 2] :: [] := by decide +kernel

theorem witness_BrokenHostDutyRefused :
    [(0 : Word), 0].length = payloadLength 0x02000000 ∧
    ({ State.reset with input := [.word 0x02000000, .word 0, .word 0, .word 5] } : State).input =
      [(0x02000000 : Word), 0, 0].map .word ++ .word 5 :: [] ∧
    ({ State.reset with input := [.word 0x03000000, .bindImage []] } : State).input =
      [(0x03000000 : Word)].map .word ++ .bindImage [] :: [] := by decide +kernel

theorem witness_BadStateRejected :
    admitted .tile .idle = false ∧ admitted .tile .image = true ∧ admitted .finalize .image = false ∧
    admitted (.imageBegin 8 8 []) .ready = true ∧
    after (·.responses) (exec .tile (image .mode4 [])) = some [⟨.ok, 0⟩] := by decide +kernel

theorem witness_RejectionHasNoEffect :
    ∃ t, exec .tile State.reset = .next t ∧ t.responses = State.reset.responses ++ [⟨.badState, 0⟩] ∧
      isRejection .badState = true := ⟨_, rfl, rfl, rfl⟩

theorem witness_ModeWrittenOnlyByRunStart :
    (∃ t, exec (.runStart .mode0) State.reset = .next t) ∧ ∃ t, exec (.readReg 0) State.reset = .next t := ⟨⟨_, rfl⟩, ⟨_, rfl⟩⟩

theorem witness_ImageBeginAccepted :
    (ready .mode4).runState = .ready ∧ (ready .mode4).imageBound = true ∧ (16 : Word).toNat % 8 = 0 ∧ (8 : Word).toNat % 8 = 0 ∧
    4 * (16 : Word).toNat * (8 : Word).toNat ≤ ({ ready .mode4 with imgLen := 512 } : State).imgLen ∧
    4 * (0 : Word).toNat * (8 : Word).toNat ≤ (ready .mode4).imgLen := by decide +kernel

theorem witness_ImageBeginErrorOrder :
    State.reset.runState ≠ .ready ∧ (ready .mode4).runState = .ready ∧ (ready .mode4).imageBound = true ∧ (12 : Word).toNat % 8 ≠ 0 ∧
    ({ ready .mode4 with imgLen := 255 } : State).imgLen < 4 * (8 : Word).toNat * (8 : Word).toNat := by decide +kernel

theorem witness_UnboundImageRefused :
    ({ State.reset with runState := .ready } : State).imageBound = false ∧ (8 : Word).toNat % 8 = 0 ∧
    (ready .mode4).imageBound = true ∧ exec (.imageBegin 8 8 []) { State.reset with runState := .ready } = .refused .imageNotBound ∧
    after (·.responses) (exec (.imageBegin 8 8 []) State.reset) = some [⟨.badState, 0⟩] ∧
    after (·.responses) (exec (.imageBegin 12 8 []) { State.reset with runState := .ready }) = some [⟨.invalidDimensions, 0⟩] :=
  ⟨rfl, rfl, rfl, rfl, rfl, rfl⟩

theorem witness_SanitizeStripsLastExtension : (46 : Byte) ∉ [0x61, 0x62] ∧ (46 : Byte) ∉ ([] : List Byte) := by decide

theorem witness_ReadRegValues :
    ((14 : BitVec 8) = 14 ∨ (14 : BitVec 8) = 15 ∨ 32 ≤ (14 : BitVec 8).toNat) ∧ 32 ≤ (32 : BitVec 8).toNat ∧
    (13 : Fin 16).val < (14 : BitVec 5).toNat ∧ ¬ (14 : Fin 16).val < (14 : BitVec 5).toNat := by decide

theorem witness_QuantizeTopTwoBits :
    (⟨255, 0, 64, 0⟩ : Pixel).a = 0 ∧ (⟨255, 0, 64, 1⟩ : Pixel).a ≠ 0 := by decide

theorem witness_ClassifyM0LowestMatch :
    (⟨15, 7, 9, 1⟩ : Pixel).a ≠ 0 ∧ testPalette[(15 : Fin 16)] = ⟨15, 7, 9⟩ ∧
    (∀ j : Fin 16, j < 15 → testPalette[j] ≠ ⟨15, 7, 9⟩) ∧ ∀ i : Fin 16, testPalette[i] ≠ ⟨1, 2, 3⟩ := by decide +kernel

theorem witness_AddOrLookupContract :
    fullPalette.length = 16 ∧ (∀ j < 15, fullPalette[j]? ≠ some 15) ∧ fullPalette[15]? = some 15 ∧ 0x10 ∉ fullPalette ∧
    (0x3F : BitVec 6) ∉ fullPalette.take 15 ∧ (fullPalette.take 15).length < 16 := by decide +kernel

theorem witness_RowWordBits : ([0, 1, 2, 3, 4, 5, 6, 7] : List (BitVec 4))[7]? = some 7 ∧ 7 < 8 ∧ 3 < 4 := by decide

theorem witness_UnpackRowInverse : ([0, 1, 2, 3, 4, 5, 6, 7] : List (BitVec 4)).length = 8 := by decide

/-- A whole run's invariant on the states the witnesses below use. -/
theorem witness_invariant :
    BlockInvariant (image .mode4 [[255, 0, 0, 255]]) ∧ BlockInvariant (withPalette fullPalette [[0, 0, 64, 255]]) ∧
    BlockInvariant (openGroup [4] 3 3 [p 15, p 9]) ∧ BlockInvariant (openGroup [4, 15] 7 7 [tr]) ∧
    BlockInvariant (image .mode4 []) ∧
    BlockInvariant (withPalette [3] [[0, 255, 0, 1], [255, 0, 0, 255], [0, 0, 255, 9], [0, 192, 0, 7]]) := by
  refine ⟨?_, ?_, ?_, ?_, ?_, ?_⟩ <;> constructor <;> decide +kernel

/-- One red pixel and 63 transparent ones. -/
def redTile : List Pixel := ⟨255, 0, 0, 255⟩ :: List.replicate 63 ⟨0, 0, 0, 0⟩

theorem witness_cursorTile :
    cursorTile (image .mode4 [[255, 0, 0, 255]]) = redTile ∧
    cursorTile (image .mode4 []) = (List.replicate 64 ⟨0, 0, 0, 0⟩) ∧
    cursorTile (openGroup [4, 15] 7 7 [tr]) = (List.replicate 64 ⟨0, 0, 0, 0⟩) ∧
    (∀ px ∈ List.replicate 64 (⟨0, 0, 0, 0⟩ : Pixel), px.a = 0) := by decide +kernel

/-- The colours of a tile of three quantized colours, 3 already in the palette: 12 first, then 48. -/
theorem witness_Mode4TileResult :
    (withPalette [3] [[0, 255, 0, 1], [255, 0, 0, 255], [0, 0, 255, 9], [0, 192, 0, 7]]).runState = .image ∧
    (withPalette [3] [[0, 255, 0, 1], [255, 0, 0, 255], [0, 0, 255, 9], [0, 192, 0, 7]]).mode = .mode4 ∧
    FirstAppearances [12, 48]
      (((cursorTile (withPalette [3] [[0, 255, 0, 1], [255, 0, 0, 255], [0, 0, 255, 9], [0, 192, 0, 7]])).filterMap
        classifyM4).filter (· ∉ [3])) ∧
    (withPalette [3] []).pal = [3] ∧ ([3] ++ [12, 48] : List (BitVec 6)).length ≤ 16 ∧
    (withPalette [3] []).tileIndex.toNat + 1 ≤ 0xFFFFFFFF := by
  have h : ((cursorTile (withPalette [3] [[0, 255, 0, 1], [255, 0, 0, 255], [0, 0, 255, 9], [0, 192, 0, 7]])).filterMap
      classifyM4).filter (· ∉ [3]) = [12, 48, 12] := by decide +kernel
  refine ⟨rfl, rfl, ?_, by decide +kernel, by decide, by decide +kernel⟩
  rw [h]
  exact ⟨by decide, by decide +kernel, by decide⟩

/-- With `witness_invariant` and `witness_cursorTile`, all hypotheses of Mode4TileRoundTrip, ImageMemoryNeverWritten,
CursorIsRowMajor, PaletteAndIndexNeverShrink, RecordsPerTile and InvariantKeptByStep (for the step that runs this TILE). -/
theorem witness_tile_completes :
    (∃ t, exec .tile (image .mode4 [[255, 0, 0, 255]]) = .next t ∧ t.runState = .ready) ∧
    (∃ t, exec .tile (openGroup [4] 3 3 [p 15, p 9]) = .next t ∧ t.runState = .ready) ∧
    ∃ t, exec .tile (withPalette fullPalette [[0, 0, 64, 255]]) = .next t ∧ t.runState = .faulted :=
  ⟨next_of_after (by decide +kernel), next_of_after (by decide +kernel), next_of_after (by decide +kernel)⟩

theorem witness_ReencodingIsIdempotent :
    indexTile [] [⟨255, 0, 0, 255⟩, ⟨0, 0, 0, 1⟩] = .ok ([0, 1], [3, 0]) ∧
    (∀ px ∈ [(⟨255, 0, 0, 255⟩ : Pixel), ⟨0, 0, 0, 1⟩], px.a ≠ 0) ∧ quantize ⟨192, 0, 0, 7⟩ = 3 ∧
    quantize ⟨63, 1, 2, 9⟩ = 0 := by decide +kernel

theorem witness_PaletteOverflowExactly :
    cursorTile (withPalette fullPalette [[0, 0, 64, 255]]) = (⟨0, 0, 64, 255⟩ :: List.replicate 63 ⟨0, 0, 0, 0⟩) ∧
    16 < ((withPalette fullPalette []).pal ++
      (⟨0, 0, 64, 255⟩ :: List.replicate 63 ⟨0, 0, 0, 0⟩ : List Pixel).filterMap classifyM4).dedup.length ∧
    ((image .mode4 []).pal ++ redTile.filterMap classifyM4).dedup.length ≤ 16 := by decide +kernel

/-- The tile of vector T2 and the tile of vector T5 (95_test_vectors.md 2.3). -/
theorem witness_TestPairContract :
    testPair testPalette [⟨15, 7, 9, 1⟩, ⟨4, 7, 9, 1⟩, ⟨0, 7, 9, 1⟩] = .ok [15, 4] ∧
    testPair testPalette [⟨4, 7, 9, 1⟩, ⟨15, 7, 9, 1⟩, ⟨6, 7, 9, 1⟩] = .error .tooManyColoursInTile := by decide +kernel

theorem witness_CompatibleCases :
    ([4, 15] : List (BitVec 4)).length ≤ 2 ∧ (4 : BitVec 4) ≠ 15 ∧ (∀ c ∈ ([15] : List (BitVec 4)), c = 4 ∨ c = 15) ∧
    (6 : BitVec 4) ∈ ([6] : List (BitVec 4)) ∧ (6 : BitVec 4) ≠ 4 ∧ (6 : BitVec 4) ≠ 15 := by decide

theorem witness_MergeKeepsBitPositions :
    ([15, 4] : List (BitVec 4)).Nodup ∧ ([4] : List (BitVec 4)).Nodup ∧ compatible [4] [15, 4] = true := by decide

theorem witness_RowByteForeground :
    [(⟨15, 7, 9, 1⟩ : Pixel)][0]? = some ⟨15, 7, 9, 1⟩ ∧ 0 < 8 ∧ (classifyM0 testPalette ⟨15, 7, 9, 1⟩).1 = 15 := by
  decide +kernel

/-- The tile of vector V18. -/
def tileV18 : List Pixel := ⟨15, 7, 9, 255⟩ :: ⟨9, 7, 9, 255⟩ :: List.replicate 62 ⟨0, 0, 0, 0⟩

theorem witness_Mode0TileResult :
    (openGroup [4] 3 3 [p 15, p 9]).runState = .image ∧ (openGroup [4] 3 3 [p 15, p 9]).mode = .mode0 ∧
    cursorTile (openGroup [4] 3 3 [p 15, p 9]) = tileV18 ∧
    testPair (openGroup [4] 3 3 [p 15, p 9]).refPalette tileV18 = .ok [15, 9] ∧
    padsNeeded (openGroup [4] 3 3 [p 15, p 9]) [15, 9] = 5 ∧
    (openGroup [4] 3 3 [p 15, p 9]).tileIndex.toNat + 5 + 1 ≤ 0xFFFFFFFF ∧
    padsNeeded (openGroup [4, 15] 7 7 [tr]) [] = 0 ∧ testPair testPalette (List.replicate 64 ⟨0, 0, 0, 0⟩) = .ok [] := by
  decide +kernel

theorem witness_ThirdColourFaults :
    cursorTile (image .mode0 [p 4, p 15, p 6]) =
      ([⟨4, 7, 9, 255⟩, ⟨15, 7, 9, 255⟩, ⟨6, 7, 9, 255⟩] ++ List.replicate 61 ⟨0, 0, 0, 0⟩) ∧
    2 < (tileColours testPalette
      ([⟨4, 7, 9, 255⟩, ⟨15, 7, 9, 255⟩, ⟨6, 7, 9, 255⟩] ++ List.replicate 61 ⟨0, 0, 0, 0⟩)).dedup.length := by
  decide +kernel

/-- The start state of vector V14, and the last index of Mode-4 (95_test_vectors.md 2.5, 2.6). -/
theorem witness_TileIndexOverflowFaults :
    cursorTile (openGroup [4, 15] 5 0xFFFFFFFD [p 15, p 9]) = tileV18 ∧
    testPair testPalette tileV18 = .ok [15, 9] ∧
    0xFFFFFFFF < (openGroup [4, 15] 5 0xFFFFFFFD [p 15, p 9]).tileIndex.toNat +
      padsNeeded (openGroup [4, 15] 5 0xFFFFFFFD [p 15, p 9]) [15, 9] + 1 ∧
    cursorTile { image .mode4 [] with tileIndex := 0xFFFFFFFF } = (List.replicate 64 ⟨0, 0, 0, 0⟩) ∧
    indexTile { image .mode4 [] with tileIndex := 0xFFFFFFFF }.pal (List.replicate 64 ⟨0, 0, 0, 0⟩) =
      .ok (List.replicate 64 0, []) ∧
    0xFFFFFFFF < ({ image .mode4 [] with tileIndex := 0xFFFFFFFF } : State).tileIndex.toNat + 1 := by decide +kernel

theorem witness_FaultedIsSticky :
    faulted.runState = .faulted ∧ regValue faulted 10 = some 0 ∧
    ({ faulted with input := [.powerOn] } : State).input = [.powerOn] ∧
    ∃ t, exec (.readReg 0) faulted = .next t := ⟨rfl, rfl, rfl, ⟨_, rfl⟩⟩

theorem witness_Finalize :
    BlockInvariant ((ready .mode4).setPal [0x3F, 0x39]) ∧ ((ready .mode4).setPal [0x3F, 0x39]).runState = .ready ∧
    ((ready .mode4).setPal [0x3F, 0x39]).mode = .mode4 ∧ (ready .mode0).runState = .ready ∧ (ready .mode0).mode = .mode0 := by
  refine ⟨?_, rfl, rfl, rfl, rfl⟩
  constructor <;> decide +kernel

theorem witness_OnlyTileReadsImageMemory : Instr.finalize ≠ .tile ∧ Instr.readReg 0 ≠ .tile := by decide

/-- A second image memory that agrees with the tile's 256 bytes and differs beyond them. -/
theorem witness_TileReadsOnlyItsPixels :
    ∀ x < 8, ∀ y < 8, ∀ c < 4,
      readByte ((image .mode4 [[255, 0, 0, 255]]).imgMem ++ [(256, 9)]) (4 * ((8 * 0 + y) * 8 + (8 * 0 + x)) + c) =
        readByte (image .mode4 [[255, 0, 0, 255]]).imgMem (4 * ((8 * 0 + y) * 8 + (8 * 0 + x)) + c) := by decide +kernel

theorem witness_TileStaysWithinBuffer :
    (image .mode4 []).runState = .image ∧
    4 * (image .mode4 []).imgW.toNat * (image .mode4 []).imgH.toNat ≤ (image .mode4 []).imgLen := by decide +kernel

/-- A shorter buffer bound while an image is active, and the bytes within it (R275). -/
theorem witness_TileReadsWhateverIsBound :
    ({ image .mode4 [] with input := [.bindImage [255, 7], .word 0x03000000, .awaitResponse] } : State).input =
      .bindImage [255, 7] :: .word 0x03000000 :: .awaitResponse :: [] ∧
    imageByte ((image .mode4 []).bindImage [255, 7]) 1 = 7 ∧ ((image .mode4 []).bindImage [255, 7]).imgLen = 2 := by
  decide +kernel

theorem witness_SinkAppendOnlyNeverRead :
    ∃ t, step { image .mode4 [] with input := [.word 0x03000000, .awaitResponse] } = .next t ∧ t.sink.length = 8 :=
  next_of_after (by decide +kernel)

theorem witness_InvariantKeptByStep :
    BlockInvariant { image .mode4 [] with input := [.word 0x03000000, .awaitResponse] } := by
  constructor <;> decide +kernel

/-- A Mode-0 run of nine tiles, the ninth in an open group. -/
def nineTiles : State :=
  { (ready .mode0).setPair [6, 7] with
    tileIndex := 9, groupPos := 1, imageCount := 1
    sink := .sym [] 0 :: List.replicate 64 (.pat8 0x33) ++ [.ctb 0xF4] ++ List.replicate 8 (.pat8 0x55) }

theorem witness_RunLedger : BlockInvariant nineTiles ∧ RunLedger 0 nineTiles ∧ nineTiles.mode = .mode0 ∧ nineTiles.runState = .ready ∧
    (∀ m, Instr.finalize ≠ .runStart m) ∧ ∃ t, exec .finalize nineTiles = .next t := by
  refine ⟨?_, ?_, rfl, rfl, fun m h => ?_, ⟨_, rfl⟩⟩
  · constructor <;> decide +kernel
  · constructor <;> decide +kernel
  · cases h

theorem witness_EncodeImageRunsToTheEnd :
    BlockInvariant { ready .mode4 with imgLen := 512 } ∧ (ready .mode4).runState = .ready ∧ (ready .mode4).imageBound = true ∧
    4 * (16 : Word).toNat * (8 : Word).toNat ≤ ({ ready .mode4 with imgLen := 512 } : State).imgLen ∧
    expandEncodeImage 16 8 [] = some [.imageBegin 16 8 [], .tile, .tile] := by
  refine ⟨?_, rfl, rfl, by decide, by decide +kernel⟩
  constructor <;> decide +kernel

end Sys2Proof.Tests
end

section
/-! SUPPORT. The block's invariant: what each named operation of the state needs to keep it. -/

namespace Sys2Proof.Machine

variable {s : State}

/-! ### Operations outside the encoders -/

/-- The invariant does not look at the sink. -/
theorem BlockInvariant.emitAll (h : BlockInvariant s) (rs : List Record) : BlockInvariant (s.emitAll rs) := { h with }

/-- The invariant does not look at the response channel. -/
theorem BlockInvariant.respond (h : BlockInvariant s) (st : Status) (v : Word) : BlockInvariant (s.respond st v) := { h with }

/-- The invariant does not look at the command channel. -/
theorem BlockInvariant.setInput (h : BlockInvariant s) (inp : List HostInput) : BlockInvariant (s.setInput inp) := { h with }

/-- A bound buffer is in canonical form and lies below its length. -/
theorem BlockInvariant.bindImage (h : BlockInvariant s) (bytes : List Byte) : BlockInvariant (s.bindImage bytes) :=
  { h with
    memory_wf := wf_bindImage s bytes
    memory_bounded := bounded_bindImage s bytes
    image_bound := fun _ => rfl }

/-- The reset values satisfy every clause on the block's own fields; the clauses on the image memory are those of the state before.
-/
theorem blockInvariant_clearBlock (hwf : Memory.wf s.imgMem = true) (hlt : ∀ c ∈ s.imgMem, c.1 < s.imgLen) {rs : RunState}
    (hrs : rs = .idle ∨ rs = .ready) (m : Mode) : BlockInvariant (s.clearBlock rs m) where
  memory_wf := hwf
  memory_bounded := hlt
  image_bound := by rcases hrs with rfl | rfl <;> simp
  palCount_le := by simp
  pal_nodup := by simp [State.pal]
  palEntry_zero := by simp
  pal_mode0 _ := rfl
  pairCount_le := by simp
  pairEntry0_zero _ := rfl
  pairEntry1_zero _ := rfl
  pair_nodup := by simp [State.pair]
  pair_nonzero := by simp [State.pair]
  groupPos_index _ := rfl
  pair_fresh _ _ := rfl
  mode4_unused _ := ⟨rfl, rfl, rfl⟩
  cursor_in_grid := by rcases hrs with rfl | rfl <;> simp
  faultCode_faulted := by rcases hrs with rfl | rfl <;> simp
  fault_clear _ := ⟨rfl, rfl, rfl, rfl, rfl⟩
  idle_fresh _ := ⟨rfl, rfl⟩

theorem BlockInvariant.clearBlock (h : BlockInvariant s) {rs : RunState} (hrs : rs = .idle ∨ rs = .ready) (m : Mode) :
    BlockInvariant (s.clearBlock rs m) :=
  blockInvariant_clearBlock h.memory_wf h.memory_bounded hrs m

/-- A fatal fault leaves the registers as they were, and the code it writes is that of a fatal fault (R250). -/
theorem BlockInvariant.takeFault (h : BlockInvariant s) (f : FatalFault) : BlockInvariant (s.takeFault f) :=
  { h with
    image_bound := nofun
    cursor_in_grid := nofun
    faultCode_faulted := fun _ => by cases f <;> simp [statusCode, faultStatus]
    fault_clear := fun hr => absurd rfl hr
    idle_fresh := nofun }

/-- Entering READY or FINALIZED without a fault asks nothing of the registers. -/
theorem BlockInvariant.setRunState (h : BlockInvariant s) (hs : s.runState ≠ .faulted) {rs : RunState}
    (hrs : rs = .ready ∨ rs = .finalized) : BlockInvariant { s with runState := rs } :=
  { h with
    image_bound := by rcases hrs with rfl | rfl <;> exact nofun
    cursor_in_grid := by rcases hrs with rfl | rfl <;> exact nofun
    faultCode_faulted := by rcases hrs with rfl | rfl <;> exact nofun
    fault_clear := fun _ => h.fault_clear hs
    idle_fresh := by rcases hrs with rfl | rfl <;> exact nofun }

/-- The cursor may be moved within the tile grid, and anywhere while no image is active (R33). -/
theorem BlockInvariant.setCursor (h : BlockInvariant s) {x y : Word}
    (hc : s.runState = .image → x.toNat < s.imgW.toNat / 8 ∧ y.toNat < s.imgH.toNat / 8) :
    BlockInvariant { s with curTX := x, curTY := y } :=
  { h with cursor_in_grid := hc }

/-- AdvanceCursor (R211) keeps the invariant: a cursor that leaves the grid leaves the IMAGE state with it. -/
theorem BlockInvariant.advanceCursor (h : BlockInvariant s) (hr : s.runState = .image) :
    BlockInvariant (advanceCursor s) := by
  obtain ⟨hx, hy⟩ := h.cursor_in_grid hr
  rcases advanceCursor_cases s with ⟨hlt, e⟩ | ⟨-, -, e⟩ | ⟨-, hne, e⟩ <;> rw [e]
  · exact h.setCursor fun _ => ⟨by bv_omega, hy⟩
  · exact (h.setRunState (by simp [hr]) (.inl rfl)).setCursor nofun
  · refine h.setCursor fun _ => ⟨Nat.zero_lt_of_lt hx, ?_⟩
    bv_omega

/-- An accepted image has its cursor at the first tile of a grid that is not empty, or is complete at once (R201, R204). -/
theorem BlockInvariant.acceptImage (h : BlockInvariant s) (hr : s.runState = .ready) (hb : s.imageBound = true) {w ht : Word}
    (hw : w.toNat % 8 = 0) (hh : ht.toNat % 8 = 0) (name : List Byte) : BlockInvariant (acceptImage w ht name s) := by
  have hclear := h.fault_clear (by simp [hr])
  unfold Machine.acceptImage
  by_cases hz : w = 0 ∨ ht = 0
  · rw [if_pos hz]
    exact { h with
      image_bound := nofun, cursor_in_grid := nofun, faultCode_faulted := nofun, fault_clear := fun _ => hclear
      idle_fresh := nofun }
  · rw [if_neg hz]
    have hgrid : 0 < w.toNat / 8 ∧ 0 < ht.toNat / 8 := by
      bv_omega
    exact { h with
      image_bound := fun _ => hb, cursor_in_grid := fun _ => hgrid, faultCode_faulted := nofun
      fault_clear := fun _ => hclear, idle_fresh := nofun }

/-- FINALIZE (R215) keeps the invariant. -/
theorem BlockInvariant.finishOutputs (h : BlockInvariant s) : BlockInvariant (finishOutputs s) := by
  obtain ⟨rs, e⟩ := finishOutputs_frame s
  rw [e]
  exact h.emitAll rs

/-! ### The Mode-4 encoder -/

/-- The palette registers may be rewritten in a Mode-4 run with a list that is no shorter, has no colour twice and fits (R29). -/
theorem BlockInvariant.setPal (h : BlockInvariant s) (hm : s.mode = .mode4) {P : List (BitVec 6)} (hl : P.length ≤ 16)
    (hge : s.palCount.toNat ≤ P.length) (hn : P.Nodup) : BlockInvariant (s.setPal P) := by
  have hc : (s.setPal P).palCount.toNat = P.length := by
    rw [State.setPal_palCount, BitVec.toNat_ofNat]
    omega
  exact { h with
    palCount_le := hc ▸ hl
    pal_nodup := (State.setPal_pal s hl).symm ▸ hn
    palEntry_zero := fun i hi => by
      rw [hc] at hi
      simpa [List.getElem?_eq_none hi] using h.palEntry_zero i (hge.trans hi)
    pal_mode0 := fun h0 => absurd (hm.symm.trans h0) nofun }

/-- In a Mode-4 run the tile index is free of the group position (R32). -/
theorem BlockInvariant.setTileIndex (h : BlockInvariant s) (hm : s.mode = .mode4) (hr : s.runState ≠ .idle) (ti : Word) :
    BlockInvariant { s with tileIndex := ti } :=
  { h with
    groupPos_index := fun h0 => absurd (hm.symm.trans h0) nofun
    idle_fresh := fun hi => absurd hi hr }

/-! ### The Mode-0 encoder -/

/-- A list of colours that PAIR may hold (R30, R32): at most two, distinct, and none of them 0. -/
structure IsPair (L : List (BitVec 4)) : Prop where
  length_le : L.length ≤ 2
  nodup : L.Nodup
  nonzero : 0 ∉ L

theorem isPair_nil : IsPair [] := ⟨by simp, by simp, by simp⟩

/-- The invariant says that PAIR holds such a list. -/
theorem BlockInvariant.isPair (h : BlockInvariant s) : IsPair s.pair :=
  ⟨by simp [State.pair], h.pair_nodup, h.pair_nonzero⟩

/-- What CT_TEST_PAIR answers is such a list (R150). -/
theorem isPair_testPair {ref : Vector Rgb 16} {t : List Pixel} {test : List (BitVec 4)} (h : testPair ref t = .ok test) :
    IsPair test := by
  obtain ⟨-, hl, hn, h0, -⟩ := testPairFrom_ok ref (by simp) List.nodup_nil (by simp) h
  exact ⟨hl, hn, h0⟩

/-- CT_MERGE gives the union of its two lists (R155). -/
theorem mem_merge {c : BitVec 4} : ∀ {test pair : List (BitVec 4)}, c ∈ merge pair test ↔ c ∈ pair ∨ c ∈ test
  | [], pair => by simp [merge]
  | d :: test, pair => by
    rw [show merge pair (d :: test) = merge (if d ∈ pair then pair else pair ++ [d]) test from rfl, mem_merge]
    by_cases hd : d ∈ pair
    · rw [if_pos hd, List.mem_cons]
      exact ⟨Or.imp_right .inr, fun h => h.elim .inl fun h => h.elim (fun e => .inl (e ▸ hd)) .inr⟩
    · rw [if_neg hd, List.mem_append, List.mem_singleton, List.mem_cons, or_assoc]

/-- CT_MERGE adds no colour twice (R155). -/
theorem merge_nodup : ∀ {test pair : List (BitVec 4)}, pair.Nodup → (merge pair test).Nodup
  | [], _, h => h
  | d :: test, pair, h => by
    rw [show merge pair (d :: test) = merge (if d ∈ pair then pair else pair ++ [d]) test from rfl]
    by_cases hd : d ∈ pair
    · rw [if_pos hd]
      exact merge_nodup h
    · rw [if_neg hd]
      exact merge_nodup (List.nodup_append.mpr ⟨h, by simp, fun a ha b hb e => hd (List.mem_singleton.mp hb ▸ e ▸ ha)⟩)

/-- The merged list is as long as the union that CT_COMPATIBLE counts (R152, R155). -/
theorem merge_length {pair test : List (BitVec 4)} (h : pair.Nodup) :
    (merge pair test).length = (pair ++ test).dedup.length :=
  ((List.perm_ext_iff_of_nodup (merge_nodup h) (List.nodup_dedup _)).mpr fun c => by
    rw [mem_merge, List.mem_dedup, List.mem_append]).length_eq

/-- Merging compatible lists gives a list that PAIR may hold. -/
theorem IsPair.merge {pair test : List (BitVec 4)} (hp : IsPair pair) (ht : IsPair test)
    (hc : compatible pair test = true) : IsPair (merge pair test) where
  length_le := merge_length hp.nodup ▸ of_decide_eq_true hc
  nodup := merge_nodup hp.nodup
  nonzero := fun h0 => (mem_merge.mp h0).elim hp.nonzero ht.nonzero

/-- Pair, group position and tile index may be rewritten together in a Mode-0 run, as long as they agree (R30, R32). -/
theorem BlockInvariant.setGroup (h : BlockInvariant s) (hm : s.mode = .mode0) (hr : s.runState ≠ .idle) {L : List (BitVec 4)}
    (hL : IsPair L) {ti : Word} {gp : BitVec 3} (hgp : gp.toNat = ti.toNat % 8) (hfresh : gp = 0 → L = []) :
    BlockInvariant { s.setPair L with tileIndex := ti, groupPos := gp } := by
  have hc : (s.setPair L).pairCount.toNat = L.length := by
    rw [State.setPair_pairCount, BitVec.toNat_ofNat]
    have := hL.length_le
    omega
  have hpair := State.setPair_pair s hL.length_le
  exact { h with
    pairCount_le := hc ▸ hL.length_le
    pairEntry0_zero := fun h0 => by
      have : L = [] := List.length_eq_zero_iff.mp (by rw [← hc]; exact congrArg BitVec.toNat h0)
      simp [this]
    pairEntry1_zero := fun h1 => by
      have : L.length ≤ 1 := hc ▸ h1
      simp [List.getElem?_eq_none this]
    pair_nodup := hpair.symm ▸ hL.nodup
    pair_nonzero := hpair.symm ▸ hL.nonzero
    groupPos_index := fun _ => hgp
    pair_fresh := fun _ h0 => by simp [hfresh h0]
    mode4_unused := fun h4 => absurd (hm.symm.trans h4) nofun
    idle_fresh := fun hi => absurd hi hr }

/-- The warning flag is free in a Mode-0 run (R34, R193). -/
theorem BlockInvariant.warnIf (h : BlockInvariant s) (hm : s.mode = .mode0) (seen : Bool) : BlockInvariant (s.warnIf seen) := by
  rw [State.warnIf_eq]
  exact { h with mode4_unused := fun h4 => absurd (hm.symm.trans h4) nofun }

/-- CT_ROLLOVER (R153) takes the tile index to the next multiple of 8. -/
theorem BlockInvariant.rollover (h : BlockInvariant s) (hm : s.mode = .mode0) (hr : s.runState ≠ .idle) :
    BlockInvariant (rollover s).1 := by
  rw [rollover_eq]
  refine (h.setGroup hm hr isPair_nil ?_ fun _ => rfl).emitAll _
  have := h.groupPos_index hm
  bv_omega

theorem BlockInvariant.rolloverIfNeeded (h : BlockInvariant s) (hm : s.mode = .mode0) (hr : s.runState ≠ .idle)
    (test : List (BitVec 4)) : BlockInvariant (rolloverIfNeeded s test).1 := by
  unfold Machine.rolloverIfNeeded
  split
  · exact h
  · exact h.rollover hm hr

/-- After the rollover, where one was needed, the tile can join the group (R190). -/
theorem compatible_rolloverIfNeeded (s : State) {test : List (BitVec 4)} (ht : IsPair test) :
    compatible (rolloverIfNeeded s test).1.pair test = true := by
  unfold rolloverIfNeeded
  split
  · assumption
  · rw [rollover_eq]
    exact decide_eq_true ((List.dedup_sublist test).length_le.trans ht.length_le)

/-- Placing a tile (R190) keeps the invariant: the eighth tile of a group closes it, and an earlier one leaves a pair that both
groups of colours fit in. -/
theorem BlockInvariant.placeTile (h : BlockInvariant s) (hm : s.mode = .mode0) (hr : s.runState ≠ .idle)
    {test : List (BitVec 4)} (ht : IsPair test) (hc : compatible s.pair test = true) (t : List Pixel) :
    BlockInvariant (placeTile t test s) := by
  have hgp := h.groupPos_index hm
  rw [placeTile_eq]
  by_cases hfull : s.groupPos.toNat + 1 = 8
  · simp only [if_pos hfull]
    refine (h.setGroup hm hr isPair_nil ?_ fun _ => rfl).emitAll _
    bv_omega
  · simp only [if_neg hfull]
    have hnext : (s.groupPos + 1).toNat = s.groupPos.toNat + 1 := by
      bv_omega
    refine (h.setGroup hm hr (h.isPair.merge ht hc) ?_ fun h0 => ?_).emitAll _
    · rw [hnext]
      bv_omega
    · rw [h0] at hnext
      cases hnext

/-! ### Both encoders -/

/-- A successful encoder keeps the invariant, even where the tile index it counts no longer fits (R212). -/
theorem BlockInvariant.encodeTile (h : BlockInvariant s) (hr : s.runState ≠ .idle) {t : List Pixel} {s1 : State} {n : Nat}
    (he : encodeTile t s = .ok (s1, n)) : BlockInvariant s1 := by
  rcases encodeTile_ok he with ⟨hm, -, idx, P, hP, rfl⟩ | ⟨hm, test, ht, -, rfl⟩
  · have hlen : s.pal.length = s.palCount.toNat := by
      rw [State.pal_length, Nat.min_eq_left h.palCount_le]
    obtain ⟨hpre, hl, hn, -⟩ := indexTile_ok (hlen ▸ h.palCount_le) hP
    exact ((h.emitAll _).setPal hm hl (hlen ▸ hpre.length_le) (hn h.pal_nodup)).setTileIndex hm hr _
  · have hpair := isPair_testPair ht
    have hw := h.warnIf hm (unmappableSeen s.refPalette t)
    have hwm : (s.warnIf (unmappableSeen s.refPalette t)).mode = .mode0 := by rw [State.warnIf_eq]; exact hm
    have hwr : (s.warnIf (unmappableSeen s.refPalette t)).runState ≠ .idle := by rw [State.warnIf_eq]; exact hr
    obtain ⟨_, _, _, _, _, e⟩ := rolloverIfNeeded_frame (s.warnIf (unmappableSeen s.refPalette t)) test
    exact (hw.rolloverIfNeeded hwm hwr test).placeTile (e ▸ hwm) (e ▸ hwr) hpair (compatible_rolloverIfNeeded _ hpair) t

end Sys2Proof.Machine
end

section
/-! SUPPORT. What a command and a step can do to the state, and that they keep the block's invariant. -/

namespace Sys2Proof.Machine

variable {s t : State}

/-- What a command can do: start a run, only respond, accept an image, take a fault, place a tile, or finish the run. -/
theorem exec_cases {i : Instr} (h : exec i s = .next t) :
    (∃ m, i = .runStart m ∧ t = (s.clearBlock .ready m).respond .ok 0) ∨
    ((∀ m, i ≠ .runStart m) ∧
      ((∃ st v, t = s.respond st v) ∨
        (∃ w ht name, s.runState = .ready ∧ s.imageBound = true ∧ w.toNat % 8 = 0 ∧ ht.toNat % 8 = 0 ∧
          t = (acceptImage w ht name s).respond .ok 0) ∨
        (s.runState = .image ∧ ∃ f, t = s.takeFault f) ∨
        (s.runState = .image ∧ ∃ s1 n, encodeTile (cursorTile s) s = .ok (s1, n) ∧
          s.tileIndex.toNat + n + 1 ≤ 0xFFFFFFFF ∧ t = (advanceCursor s1).respond .ok 0) ∨
        (s.runState = .ready ∧ t = State.respond { finishOutputs s with runState := .finalized } .ok 0))) := by
  cases i with
  | runStart m => cases h; exact .inl ⟨m, rfl, rfl⟩
  | imageBegin w ht name =>
    refine .inr ⟨nofun, ?_⟩
    change execImageBegin w ht name s = .next t at h
    rcases execImageBegin_cases w ht name s with ⟨st, e, -⟩ | ⟨-, -, -, -, e⟩ | ⟨hr, hw, hh, hb, -, e⟩ <;> rw [e] at h <;> cases h
    · exact .inl ⟨st, 0, rfl⟩
    · exact .inr (.inl ⟨w, ht, name, hr, hb, hw, hh, rfl⟩)
  | tile =>
    refine .inr ⟨nofun, ?_⟩
    change execTile s = .next t at h
    rcases execTile_cases s with ⟨-, e⟩ | ⟨hr, ⟨f, -, e⟩ | ⟨s1, n, he, ⟨-, e⟩ | ⟨hn, e⟩⟩⟩ <;> rw [e] at h <;> cases h
    · exact .inl ⟨.badState, 0, rfl⟩
    · exact .inr (.inr (.inl ⟨hr, f, rfl⟩))
    · exact .inr (.inr (.inl ⟨hr, .tileIndexOverflow, rfl⟩))
    · exact .inr (.inr (.inr (.inl ⟨hr, s1, n, he, hn, rfl⟩)))
  | finalize =>
    refine .inr ⟨nofun, ?_⟩
    change execFinalize s = .next t at h
    rcases execFinalize_cases s with ⟨-, e⟩ | ⟨hr, e⟩ <;> rw [e] at h <;> cases h
    · exact .inl ⟨.badState, 0, rfl⟩
    · exact .inr (.inr (.inr (.inr ⟨hr, rfl⟩)))
  | readReg n =>
    refine .inr ⟨nofun, .inl ?_⟩
    change execReadReg n s = .next t at h
    rcases execReadReg_cases n s with ⟨-, e⟩ | ⟨v, -, e⟩ <;> rw [e] at h <;> cases h
    · exact ⟨.illegalCommand, 0, rfl⟩
    · exact ⟨.ok, v, rfl⟩

/-- A successful encoder leaves RUN_STATE and MODE alone. -/
theorem encodeTile_runState_mode {p : List Pixel} {s1 : State} {n : Nat} (he : encodeTile p s = .ok (s1, n)) :
    s1.runState = s.runState ∧ s1.mode = s.mode := by
  obtain ⟨_, _, _, _, _, _, _, _, _, rfl⟩ := encodeTile_frame he
  exact ⟨rfl, rfl⟩

/-- Every command keeps the invariant. -/
theorem BlockInvariant.exec (h : BlockInvariant s) {i : Instr} (he : exec i s = .next t) : BlockInvariant t := by
  rcases exec_cases he with ⟨m, -, rfl⟩ | ⟨-, ⟨st, v, rfl⟩ | ⟨w, ht, name, hr, hb, hw, hh, rfl⟩ | ⟨-, f, rfl⟩ |
    ⟨hr, s1, n, hs1, -, rfl⟩ | ⟨hr, rfl⟩⟩
  case inl => exact (h.clearBlock (.inr rfl) m).respond _ _
  case inr.inl => exact h.respond st v
  case inr.inr.inl => exact (h.acceptImage hr hb hw hh name).respond _ _
  case inr.inr.inr.inl => exact h.takeFault f
  case inr.inr.inr.inr.inl =>
    exact ((h.encodeTile (by simp [hr]) hs1).advanceCursor ((encodeTile_runState_mode hs1).1.trans hr)).respond _ _
  case inr.inr.inr.inr.inr =>
    obtain ⟨rs, e⟩ := finishOutputs_frame s
    exact (h.finishOutputs.setRunState (by simp [e, hr]) (.inr rfl)).respond _ _

/-- What the host does between two commands keeps the invariant. -/
theorem BlockInvariant.hostActs (h : BlockInvariant s) (inp : List HostInput) : BlockInvariant (hostActs inp s) :=
  hostActs_keeps (P := BlockInvariant) (fun _ bytes hs => hs.bindImage bytes) (fun _ hs => hs.clearBlock (.inl rfl) .mode4)
    (fun _ inp hs => hs.setInput inp) inp s h

/-- Settles O56: the host's acts, the command channel, and each command keep the invariant. -/
theorem invariantKeptByStep : Obligations.InvariantKeptByStep := by
  intro s t h hstep
  have hacts := h.hostActs s.input
  rcases step_cases hstep with rfl | ⟨rest, rfl⟩ | ⟨i, rest, he⟩ | ⟨rest, rfl⟩
  · exact hacts
  · exact hacts.setInput rest
  · exact (hacts.setInput rest).exec he
  · exact (hacts.setInput rest).respond _ _

end Sys2Proof.Machine
end

section
/-! SUPPORT. The registers over one command: MODE, the palette and the tile index, and the reset values. -/

namespace Sys2Proof.Machine

variable {s t : State}

/-! ### MODE -/

theorem advanceCursor_mode (s : State) : (advanceCursor s).mode = s.mode := by
  obtain ⟨_, _, _, e⟩ := advanceCursor_frame s
  rw [e]

theorem finishOutputs_mode (s : State) : (finishOutputs s).mode = s.mode := by
  obtain ⟨_, e⟩ := finishOutputs_frame s
  rw [e, State.emitAll_mode]

/-- Settles O15: each of the outcomes of a command but RUN_START is an update that leaves MODE alone. -/
theorem modeWrittenOnlyByRunStart : Obligations.ModeWrittenOnlyByRunStart := by
  intro i s t h
  rcases exec_cases h with ⟨m, rfl, rfl⟩ | ⟨hi, hcase⟩
  · exact ⟨fun m' e => by cases e; rfl, fun hne => absurd rfl (hne m)⟩
  · refine ⟨fun m e => absurd e (hi m), fun _ => ?_⟩
    rcases hcase with ⟨st, v, rfl⟩ | ⟨w, ht, name, -, -, -, -, rfl⟩ | ⟨-, f, rfl⟩ | ⟨-, s1, n, hs1, -, rfl⟩ | ⟨-, rfl⟩
    · rfl
    · rfl
    · rfl
    · exact (advanceCursor_mode s1).trans (encodeTile_runState_mode hs1).2
    · exact finishOutputs_mode s

/-! ### The palette and the tile index -/

theorem rolloverIfNeeded_tileIndex (s : State) (test : List (BitVec 4)) :
    (rolloverIfNeeded s test).1.tileIndex = s.tileIndex + BitVec.ofNat 32 (rolloverIfNeeded s test).2 := by
  obtain ⟨_, _, _, _, _, e⟩ := rolloverIfNeeded_frame s test
  rw [e]

/-- A successful encoder counts the pad tiles and the tile itself (R24, R153, R190). -/
theorem encodeTile_tileIndex {p : List Pixel} {s1 : State} {n : Nat} (he : encodeTile p s = .ok (s1, n)) :
    s1.tileIndex = s.tileIndex + BitVec.ofNat 32 n + 1 := by
  rcases encodeTile_ok he with ⟨-, rfl, idx, P, -, rfl⟩ | ⟨-, test, -, rfl, rfl⟩
  · simp
  · rw [placeTile_eq]
    exact congrArg (· + 1) ((rolloverIfNeeded_tileIndex _ test).trans (by rw [State.warnIf_eq]))

/-- A successful encoder only extends the palette (R28, R133). -/
theorem encodeTile_pal {p : List Pixel} {s1 : State} {n : Nat} (he : encodeTile p s = .ok (s1, n)) : s.pal <+: s1.pal := by
  rcases encodeTile_ok he with ⟨-, -, idx, P, hP, rfl⟩ | ⟨-, test, -, -, rfl⟩
  · obtain ⟨hpre, hl, -⟩ := indexTile_ok (by rw [State.pal_length]; exact Nat.min_le_right _ _) hP
    exact (State.setPal_pal (s.emitAll _) hl).symm ▸ hpre
  · obtain ⟨_, _, _, _, _, e⟩ := rolloverIfNeeded_frame (s.warnIf (unmappableSeen s.refPalette p)) test
    rw [placeTile_eq, e, State.warnIf_eq]
    exact List.prefix_rfl

/-- Settles O53: only a TILE that does not fault writes either register, and its index fits (R212). -/
theorem paletteAndIndexNeverShrink : Obligations.PaletteAndIndexNeverShrink := by
  intro i s t _ hi h
  rcases exec_cases h with ⟨m, rfl, -⟩ | ⟨-, ⟨st, v, rfl⟩ | ⟨w, ht, name, -, -, -, -, rfl⟩ | ⟨-, f, rfl⟩ |
    ⟨-, s1, n, hs1, hn, rfl⟩ | ⟨-, rfl⟩⟩
  case inl => exact absurd rfl (hi m)
  case inr.inl => exact ⟨List.prefix_rfl, le_rfl⟩
  case inr.inr.inl => exact ⟨List.prefix_rfl, le_rfl⟩
  case inr.inr.inr.inl => exact ⟨List.prefix_rfl, le_rfl⟩
  case inr.inr.inr.inr.inl =>
    have hpal := encodeTile_pal hs1
    obtain ⟨_, _, _, e⟩ := advanceCursor_frame s1
    rw [e]
    refine ⟨hpal, ?_⟩
    change s.tileIndex.toNat ≤ s1.tileIndex.toNat
    rw [encodeTile_tileIndex hs1]
    bv_omega
  case inr.inr.inr.inr.inr =>
    obtain ⟨_, e⟩ := finishOutputs_frame s
    rw [e]
    exact ⟨List.prefix_rfl, le_rfl⟩

/-! ### Resets -/

/-- Both resets give every field of the block its value of R40. -/
theorem atResetValues_clearBlock (s : State) (rs : RunState) (m : Mode) : AtResetValues rs m (s.clearBlock rs m) where
  runState := rfl
  mode := rfl
  tileIndex := rfl
  imageCount := rfl
  image := ⟨rfl, rfl, rfl⟩
  cursor := ⟨rfl, rfl⟩
  palCount := rfl
  palEntry := by simp
  pairCount := rfl
  pairEntry := ⟨rfl, rfl⟩
  groupPos := rfl
  warnUnmappable := rfl
  faultCode := rfl
  faultContext := ⟨rfl, rfl, rfl, rfl⟩

/-- The reset values do not look at the channels. -/
theorem AtResetValues.respond {rs : RunState} {m : Mode} (h : AtResetValues rs m s) (st : Status) (v : Word) :
    AtResetValues rs m (s.respond st v) := { h with }

theorem AtResetValues.setInput {rs : RunState} {m : Mode} (h : AtResetValues rs m s) (inp : List HostInput) :
    AtResetValues rs m (s.setInput inp) := { h with }

/-- The state after reset is what a power-on reset makes of itself. -/
theorem reset_powerOn : State.reset.powerOn = State.reset := rfl

/-- Settles O11: both resets clear the block, and RUN_START then only responds. -/
theorem resetAndRunStartValues : Obligations.ResetAndRunStartValues :=
  ⟨reset_powerOn ▸ atResetValues_clearBlock State.reset .idle .mode4, fun s m =>
    ⟨(s.clearBlock .ready m).respond .ok 0, rfl, (atResetValues_clearBlock s .ready m).respond .ok 0, rfl, rfl, rfl, rfl, rfl,
      rfl, rfl, rfl⟩⟩

/-- A step with nothing on the channel leaves the state as it is (R262). -/
theorem step_of_input_nil (h : s.input = []) : step s = .next s := by
  have hs : s.setInput [] = s := by rw [State.setInput, ← h]
  rw [step, h, hostActs_nil, hs, h]
  rfl

/-- A power-on reset at the front of the channel acts before anything else of the step. -/
theorem step_of_powerOn {rest : List HostInput} (h : s.input = .powerOn :: rest) :
    step s = step (s.powerOn.setInput rest) := by
  have hacts : hostActs s.input s = hostActs rest (s.powerOn.setInput rest) := by
    rw [h, hostActs_input]
    rfl
  rw [step, hacts]
  rfl

/-- Settles O12: the state that the step goes on from is the reset state with the rest of the inputs. -/
theorem powerOnResetFromAnyState : Obligations.PowerOnResetFromAnyState := by
  intro s rest h
  refine ⟨s.powerOn.setInput rest, (atResetValues_clearBlock s .idle .mode4).setInput rest, rfl, rfl, rfl, rfl, rfl, rfl, rfl, rfl,
    step_of_powerOn h, ?_⟩
  rintro rfl
  rw [step_of_powerOn h, step_of_input_nil (State.setInput_input _ _)]

/-- Settles O55: the reset state is a cleared block whose image memory is empty. -/
theorem invariantAtReset : Obligations.InvariantAtReset := by
  unfold Obligations.InvariantAtReset
  rw [← reset_powerOn]
  exact blockInvariant_clearBlock rfl (fun _ hc => absurd hc List.not_mem_nil) (.inl rfl) .mode4

end Sys2Proof.Machine
end

section
/-! SUPPORT. The register map of READ_REG (R36): the value of each register as a sum of its fields. -/

namespace Sys2Proof.Machine

/-- Two fields side by side, as a sum. -/
theorem toNat_append_add {m n : Nat} (x : BitVec m) (y : BitVec n) : (x ++ y).toNat = 2 ^ n * x.toNat + y.toNat := by
  rw [BitVec.toNat_append, ← Nat.shiftLeft_add_eq_or_of_lt y.isLt, Nat.shiftLeft_eq, Nat.mul_comm]

/-- STATUS (R36) as a sum of RUN_STATE, MODE, WARN_UNMAPPABLE and FAULT_CODE at their places. -/
theorem statusRegister_toNat (s : State) :
    (statusRegister s).toNat =
      (runStateCode s.runState).toNat + 8 * (modeCode s.mode).toNat + 16 * s.warnUnmappable.toNat + 256 * s.faultCode.toNat := by
  simp only [statusRegister, toNat_append_add, BitVec.toNat_ofBool, BitVec.ofNat_eq_ofNat, BitVec.toNat_ofNat, Nat.zero_mod]
  omega

/-- PAIR_STATE (R36) as a sum of PAIR_COUNT, the two entries and GROUP_POS at their places. -/
theorem pairStateRegister_toNat (s : State) :
    (pairStateRegister s).toNat =
      s.pairCount.toNat + 16 * s.pairEntry0.toNat + 256 * s.pairEntry1.toNat + 65536 * s.groupPos.toNat := by
  simp only [pairStateRegister, toNat_append_add, BitVec.ofNat_eq_ofNat, BitVec.toNat_ofNat, Nat.zero_mod]
  omega

/-- PAL_ENTRY_i (R36) is 0 at or above PAL_COUNT. -/
theorem palEntryRegister_toNat (s : State) (i : Fin 16) :
    (palEntryRegister s i).toNat = if i.val < s.palCount.toNat then s.palEntry[i].toNat else 0 := by
  unfold palEntryRegister
  split
  · have hi : s.palEntry[i.val]? = some s.palEntry[i] := Vector.getElem?_eq_getElem i.isLt
    rw [hi, Option.getD_some, BitVec.toNat_setWidth]
    omega
  · rfl

/-- From register 14 on only the palette entries have a value (R36). -/
theorem regValue_of_ge (s : State) {n : BitVec 8} (h : 14 ≤ n.toNat) :
    regValue s n = if 16 ≤ n.toNat ∧ n.toNat < 32 then some (palEntryRegister s (n.toNat - 16)) else none := by
  unfold regValue
  generalize n.toNat = k at h
  split
  on_goal 15 => rfl
  all_goals omega

theorem regValue_palEntry (s : State) (i : Fin 16) :
    regValue s (BitVec.ofNat 8 (16 + i.val)) = some (palEntryRegister s i) := by
  have hn : (BitVec.ofNat 8 (16 + i.val)).toNat = 16 + i.val := by
    rw [BitVec.toNat_ofNat]
    omega
  rw [regValue_of_ge s (by omega), hn, if_pos (by omega), Nat.add_sub_cancel_left]

/-- READ_REG of a register with a value answers that value (R220). -/
theorem readsAs_of_regValue {s : State} {n : BitVec 8} {v : Word} {k : Nat} (h : regValue s n = some v) (hk : v.toNat = k) :
    readsAs s n k := by
  subst hk
  unfold readsAs
  rw [BitVec.ofNat_toNat, BitVec.setWidth_eq]
  change execReadReg n s = _
  rw [execReadReg, h]
  rfl

/-- READ_REG of a register without a value is ILLEGAL_COMMAND (R89, R220). -/
theorem exec_readReg_of_none {s : State} {n : BitVec 8} (h : regValue s n = none) :
    exec (.readReg n) s = .next (s.reject .illegalCommand) := by
  change execReadReg n s = _
  rw [execReadReg, h]

/-- Settles O20, register by register: what is left are the registers assembled from fields, and the two ranges above 13. -/
theorem readRegValues : Obligations.ReadRegValues := by
  intro s
  refine ⟨readsAs_of_regValue rfl ?_, readsAs_of_regValue rfl rfl, readsAs_of_regValue rfl ?_,
    readsAs_of_regValue rfl (pairStateRegister_toNat s), readsAs_of_regValue rfl rfl, readsAs_of_regValue rfl rfl,
    readsAs_of_regValue rfl rfl, readsAs_of_regValue rfl rfl, readsAs_of_regValue rfl rfl, readsAs_of_regValue rfl rfl,
    readsAs_of_regValue rfl rfl, readsAs_of_regValue rfl rfl, readsAs_of_regValue rfl rfl, readsAs_of_regValue rfl rfl,
    fun i => readsAs_of_regValue (regValue_palEntry s i) (palEntryRegister_toNat s i), fun n hn => exec_readReg_of_none ?_⟩
  case refine_1 =>
    rw [statusRegister_toNat]
    cases s.runState <;> cases s.mode <;> rfl
  case refine_2 =>
    rw [BitVec.toNat_setWidth]
    omega
  case refine_3 =>
    have h14 : 14 ≤ n.toNat := by bv_omega
    rw [regValue_of_ge s h14, if_neg (by bv_omega)]

end Sys2Proof.Machine
end

section
/-! SUPPORT. The command channel over one step: what the host does before a command, and what follows one. -/

namespace Sys2Proof.Machine

variable {s : State}

/-- A buffer bound at the front of the channel is bound before anything else of the step. -/
theorem step_of_bindImage {bytes : List Byte} {rest : List HostInput} (h : s.input = .bindImage bytes :: rest) :
    step s = step ((s.bindImage bytes).setInput rest) := by
  have hacts : hostActs s.input s = hostActs rest ((s.bindImage bytes).setInput rest) := by
    rw [h, hostActs_input]
    rfl
  rw [step, hacts]
  rfl

/-- The words of a command that decode run as that command (R80). -/
theorem runWords_of_decode {words : List Word} {i : Instr} {rest : List Word} (h : decode words = .ok (i, rest)) (s : State) :
    runWords words s = exec i s := by
  rw [runWords, h]

/-- Settles O6: both ways of closing a command hand its words to `exec`. -/
theorem stepRunsDecodedCommand : Obligations.StepRunsDecodedCommand := by
  intro s h payload i after rest hl hd hi hafter
  have hclose : closeCommand (h :: payload) after = .command (h :: payload) rest := by
    rcases hafter with ⟨rfl, rfl⟩ | rfl <;> rfl
  rw [step_of_words hl hi, hclose]
  exact runWords_of_decode hd _

/-- Settles O9: setting the channel and binding a buffer write different fields. -/
theorem hostBindsBetweenCommands : Obligations.HostBindsBetweenCommands := fun _ _ _ h => step_of_bindImage h

/-- Settles O10: what follows the last word of a command decides, and both of these close it with a refusal. -/
theorem brokenHostDutyRefused : Obligations.BrokenHostDutyRefused := by
  intro s h payload rest hl
  constructor
  · intro w hi
    rw [step_of_words hl hi]
    rfl
  · intro bytes hi
    rw [step_of_words hl hi]
    rfl

end Sys2Proof.Machine
end

section
/-! SUPPORT. The bytes of the image memory: the bound buffer, the pixels of a tile, and where they lie. -/

namespace Sys2Proof.Machine

variable {s : State}

/-! ### The bound buffer -/

/-- Below its first offset a canonical memory holds no cell. -/
theorem readByte_of_lt : ∀ {m : List Host.Cell} {lo a : Nat}, memoryWfFrom lo m = true → a < lo →
    readByte m a = unlistedByte
  | [], _, _, _, _ => rfl
  | (k, v) :: rest, lo, a, hm, ha => by
    simp only [memoryWfFrom, Bool.and_eq_true, decide_eq_true_eq] at hm
    exact if_pos (ha.trans_le hm.1.1)

/-- The cells of a buffer read back as its bytes, and as 0x00 beyond it (R61, log entry 6). -/
theorem readByte_cellsFrom : ∀ (bytes : List Byte) (a k : Nat), readByte (cellsFrom a bytes) (a + k) = bytes[k]?.getD 0
  | [], _, _ => rfl
  | b :: rest, a, 0 => by
    unfold cellsFrom
    split
    case isTrue hb =>
      exact (readByte_of_lt (memoryWfFrom_cellsFrom rest (a + 1)) (Nat.lt_succ_self a)).trans hb.symm
    case isFalse => simp [readByte]
  | b :: rest, a, k + 1 => by
    have ih := readByte_cellsFrom rest (a + 1) k
    rw [Nat.add_right_comm, Nat.add_assoc] at ih
    unfold cellsFrom
    split
    case isTrue => simpa using ih
    case isFalse => simpa [readByte] using ih

theorem readByte_bindImage (s : State) (bytes : List Byte) (a : Nat) :
    readByte (s.bindImage bytes).imgMem a = bytes[a]?.getD 0 := by
  have h := readByte_cellsFrom bytes 0 a
  rwa [Nat.zero_add] at h

/-- After a binding a byte is the buffer's, or a free value of that binding (log entry 7). -/
theorem imageByte_bindImage (s : State) (bytes : List Byte) (a : Nat) :
    imageByte (s.bindImage bytes) a = bytes[a]?.getD (Config.byteBeyondBuffer (s.bindings + 1) a) := by
  by_cases h : a < bytes.length
  · rw [imageByte_of_lt (by simpa using h), readByte_bindImage, List.getElem?_eq_getElem h]
    rfl
  · rw [imageByte_of_le (by simpa using h), List.getElem?_eq_none (Nat.le_of_not_lt h)]
    rfl

/-- Settles O45, from what the cells of a buffer read back as. -/
theorem boundBufferReadsBack : Obligations.BoundBufferReadsBack := by
  intro s bytes
  refine ⟨rfl, rfl, fun a b hb => ?_, readByte_bindImage s bytes, wf_bindImage s bytes⟩
  rw [imageByte_bindImage, hb]
  rfl

/-! ### The tile at the cursor -/

/-- Settles O44: the visit order gives the pixel, and the pixel is its four bytes. -/
theorem tilePixelLayout : Obligations.TilePixelLayout := by
  intro s
  refine ⟨fetchTile_length s _ _, fun x y hx hy => ?_⟩
  rw [cursorTile, fetchTile_get s _ _ hx hy, readPixel_eq]
  rfl

/-- The tile at the cursor depends on the image only through its 256 bytes (R67). -/
theorem cursorTile_congr {s s' : State} (hw : s'.imgW = s.imgW) (hx : s'.curTX = s.curTX) (hy : s'.curTY = s.curTY)
    (h : ∀ x y c, x < 8 → y < 8 → c < 4 →
      let a := pixelOffset s.imgW.toNat (8 * s.curTX.toNat + x) (8 * s.curTY.toNat + y) + c
      imageByte s' a = imageByte s a) :
    cursorTile s' = cursorTile s := by
  rw [cursorTile, cursorTile, hx, hy]
  refine List.map_congr_left fun p hp => ?_
  obtain ⟨hp1, hp2⟩ := mem_tilePositions.mp hp
  have hc := fun c => h p.1 p.2 c hp1 hp2
  rw [readPixel_eq, readPixel_eq, hw]
  congr 1
  · exact hc 0 (by decide)
  · exact hc 1 (by decide)
  · exact hc 2 (by decide)
  · exact hc 3 (by decide)

/-- A byte of a pixel inside a `W` by `H` image lies below 4 * W * H (R63, R203). -/
theorem pixelOffset_add_lt {W H X Y c : Nat} (hX : X < W) (hY : Y < H) (hc : c < 4) :
    pixelOffset W X Y + c < 4 * W * H := by
  have hrow : Y * W + X < W * H :=
    calc Y * W + X < Y * W + W := Nat.add_lt_add_left hX _
      _ = (Y + 1) * W := (Nat.succ_mul Y W).symm
      _ ≤ H * W := Nat.mul_le_mul_right W hY
      _ = W * H := Nat.mul_comm H W
  rw [pixelOffset, Nat.mul_assoc]
  omega

/-- TILE answers a next state in every state (R69). -/
theorem exec_tile_total (s : State) : ∃ t, exec .tile s = .next t := by
  rcases exec_total .tile s with ht | ⟨_, _, _, hi, -⟩
  · exact ht
  · cases hi

/-- Settles O49: the cursor lies in the tile grid (R33), so the tile's pixels lie in the image. -/
theorem tileStaysWithinBuffer : Obligations.TileStaysWithinBuffer := by
  intro s hinv hr hlen
  refine ⟨exec_tile_total s, fun x y c hx hy hc => ?_⟩
  obtain ⟨htx, hty⟩ := hinv.cursor_in_grid hr
  have hlt := (pixelOffset_add_lt (X := 8 * s.curTX.toNat + x) (Y := 8 * s.curTY.toNat + y) (W := s.imgW.toNat)
    (H := s.imgH.toNat) (by omega) (by omega) hc).trans_le hlen
  exact ⟨hlt, imageByte_of_lt hlt⟩

/-- Settles O50: the host's binding acts first, and the word that follows it is a TILE. -/
theorem tileReadsWhateverIsBound : Obligations.TileReadsWhateverIsBound := by
  refine ⟨exec_tile_total, fun s bytes rest h => ⟨?_, imageByte_bindImage s bytes⟩⟩
  rw [step_of_bindImage h]
  exact stepRunsDecodedCommand _ 0x03000000 [] .tile _ rest rfl rfl rfl (.inr rfl)

/-! ### Commands and the image memory -/

/-- What no command writes: the fields of the image memory, the reference palette and the channel (R60, R62). -/
theorem exec_hostFields {i : Instr} {t : State} (h : exec i s = .next t) :
    t.imgMem = s.imgMem ∧ t.imgLen = s.imgLen ∧ t.imageBound = s.imageBound ∧ t.bindings = s.bindings ∧
      t.refPalette = s.refPalette ∧ t.input = s.input := by
  rcases exec_cases h with ⟨m, -, rfl⟩ | ⟨-, ⟨st, v, rfl⟩ | ⟨w, ht, name, -, -, -, -, rfl⟩ | ⟨-, f, rfl⟩ |
    ⟨-, s1, n, hs1, -, rfl⟩ | ⟨-, rfl⟩⟩
  case inr.inr.inr.inr.inl =>
    obtain ⟨_, _, _, _, _, _, _, _, _, rfl⟩ := encodeTile_frame hs1
    obtain ⟨_, _, _, e⟩ := advanceCursor_frame _
    rw [e]
    exact ⟨rfl, rfl, rfl, rfl, rfl, rfl⟩
  case inr.inr.inr.inr.inr =>
    obtain ⟨_, e⟩ := finishOutputs_frame s
    rw [e]
    exact ⟨rfl, rfl, rfl, rfl, rfl, rfl⟩
  all_goals exact ⟨rfl, rfl, rfl, rfl, rfl, rfl⟩

/-- Settles O46: a byte of the image memory is a function of fields that no command writes. -/
theorem imageMemoryNeverWritten : Obligations.ImageMemoryNeverWritten := by
  intro i s t h
  have hfields := exec_hostFields h
  refine ⟨fun a => ?_, hfields⟩
  obtain ⟨hmem, hlen, -, hbindings, -⟩ := hfields
  rw [imageByte, imageByte, hmem, hlen, hbindings]

end Sys2Proof.Machine
end

section
/-! SUPPORT. What commands do not read: the records already in the sink (R76), and, but for TILE, the image memory (R61). -/

namespace Sys2Proof.Machine

variable {s t : State}

/-- The state with further records before those of the sink and another image memory. -/
def State.withUnread (s : State) (pre : List Record) (f : List Host.Cell → List Host.Cell) : State :=
  { s with sink := pre ++ s.sink, imgMem := f s.imgMem }

variable (pre : List Record) (f : List Host.Cell → List Host.Cell)

@[simp] theorem State.withUnread_mode (s : State) : (s.withUnread pre f).mode = s.mode := rfl
@[simp] theorem State.withUnread_refPalette (s : State) : (s.withUnread pre f).refPalette = s.refPalette := rfl
@[simp] theorem State.withUnread_pal (s : State) : (s.withUnread pre f).pal = s.pal := rfl

/-! ### Operations -/

theorem State.emitAll_withUnread (s : State) (rs : List Record) :
    (s.withUnread pre f).emitAll rs = (s.emitAll rs).withUnread pre f := by
  simp only [withUnread, emitAll, List.append_assoc]

theorem State.warnIf_withUnread (s : State) (seen : Bool) :
    (s.withUnread pre f).warnIf seen = (s.warnIf seen).withUnread pre f := by
  simp only [warnIf_eq, withUnread, List.append_assoc]

theorem rollover_withUnread (s : State) :
    rollover (s.withUnread pre f) = ((rollover s).1.withUnread pre f, (rollover s).2) := by
  simp only [rollover_eq, State.withUnread, List.append_assoc]
  rfl

theorem rolloverIfNeeded_withUnread (s : State) (test : List (BitVec 4)) :
    rolloverIfNeeded (s.withUnread pre f) test =
      ((rolloverIfNeeded s test).1.withUnread pre f, (rolloverIfNeeded s test).2) := by
  unfold rolloverIfNeeded
  by_cases h : compatible s.pair test
  · exact (if_pos h).trans (by rw [if_pos h])
  · exact (if_neg h).trans (by rw [if_neg h, rollover_withUnread])

theorem placeTile_withUnread (p : List Pixel) (test : List (BitVec 4)) (s : State) :
    placeTile p test (s.withUnread pre f) = (placeTile p test s).withUnread pre f := by
  simp only [placeTile_eq, State.withUnread, List.append_assoc]
  rfl

theorem advanceCursor_withUnread (s : State) : advanceCursor (s.withUnread pre f) = (advanceCursor s).withUnread pre f := by
  simp only [advanceCursor, apply_ite (State.withUnread · pre f)]
  rfl

theorem finishOutputs_withUnread (s : State) : finishOutputs (s.withUnread pre f) = (finishOutputs s).withUnread pre f := by
  simp only [finishOutputs, State.withUnread_mode]
  cases s.mode with
  | mode4 => exact State.emitAll_withUnread pre f s _
  | mode0 =>
    simp only [flush_eq, State.withUnread, List.append_assoc]
    rfl

/-- The encoders look at neither. -/
theorem encodeTile_withUnread (p : List Pixel) (s : State) :
    encodeTile p (s.withUnread pre f) = (encodeTile p s).map fun r => (r.1.withUnread pre f, r.2) := by
  simp only [encodeTile, State.withUnread_mode]
  cases s.mode with
  | mode4 =>
    simp only [encodeTileM4, State.withUnread_pal, State.emitAll_withUnread]
    cases indexTile s.pal p <;> rfl
  | mode0 =>
    simp only [encodeTileM0, State.withUnread_refPalette, State.warnIf_withUnread, rolloverIfNeeded_withUnread,
      placeTile_withUnread]
    cases testPair s.refPalette p <;> rfl

/-! ### Commands -/

theorem execTile_withUnread (s : State) (h : cursorTile (s.withUnread pre f) = cursorTile s) :
    execTile (s.withUnread pre f) = mapNext (·.withUnread pre f) (execTile s) := by
  unfold execTile
  rw [h, encodeTile_withUnread]
  by_cases hr : s.runState ≠ .image
  · exact (if_pos hr).trans (by rw [if_pos hr]; rfl)
  · refine (if_neg hr).trans ?_
    rw [if_neg hr]
    cases encodeTile (cursorTile s) s with
    | error e => rfl
    | ok r =>
      simp only [Except.map, advanceCursor_withUnread, apply_ite (mapNext _)]
      rfl

/-- A command looks at neither, but for the pixels that a TILE reads. -/
theorem exec_withUnread (i : Instr) (s : State) (h : i = .tile → cursorTile (s.withUnread pre f) = cursorTile s) :
    exec i (s.withUnread pre f) = mapNext (·.withUnread pre f) (exec i s) := by
  cases i with
  | runStart m => rfl
  | imageBegin w ht name =>
    change execImageBegin w ht name _ = mapNext _ (execImageBegin w ht name s)
    have haccept : acceptImage w ht name (s.withUnread pre f) = (acceptImage w ht name s).withUnread pre f := by
      simp only [acceptImage, State.emit, State.emitAll_withUnread]
      rfl
    simp only [execImageBegin, haccept, apply_ite (mapNext _)]
    rfl
  | tile => exact execTile_withUnread pre f s (h rfl)
  | finalize =>
    change execFinalize _ = mapNext _ (execFinalize s)
    simp only [execFinalize, finishOutputs_withUnread, apply_ite (mapNext _)]
    rfl
  | readReg n =>
    change execReadReg n _ = mapNext _ (execReadReg n s)
    have hreg : regValue (s.withUnread pre f) n = regValue s n := rfl
    unfold execReadReg
    rw [hreg]
    cases regValue s n <;> rfl

/-- Settles O47: with no further record and a constant image memory. -/
theorem onlyTileReadsImageMemory : Obligations.OnlyTileReadsImageMemory := fun i s m hi =>
  exec_withUnread [] (fun _ => m) i s fun h => absurd h hi

/-- Settles O48: the bytes that the two memories agree on are the tile's (R67). -/
theorem tileReadsOnlyItsPixels : Obligations.TileReadsOnlyItsPixels := by
  intro s m h
  refine exec_withUnread [] (fun _ => m) .tile s fun _ => cursorTile_congr rfl rfl rfl fun x y c hx hy hc => ?_
  dsimp only
  by_cases ha : pixelOffset s.imgW.toNat (8 * s.curTX.toNat + x) (8 * s.curTY.toNat + y) + c < s.imgLen
  · rw [imageByte_of_lt ha]
    exact (imageByte_of_lt (s := s.withUnread [] fun _ => m) ha).trans (h x y c hx hy hc ha)
  · rw [imageByte_of_le (Nat.le_of_not_lt ha)]
    exact imageByte_of_le (Nat.le_of_not_lt ha)

/-! ### The step and the output channels -/

/-- What the host does before a command does not look at the sink. -/
theorem hostActs_withRecords : ∀ (inp : List HostInput) (s : State),
    hostActs inp (s.withUnread pre id) = (hostActs inp s).withUnread pre id
  | [], _ => rfl
  | .word _ :: _, _ => rfl
  | .awaitResponse :: rest, s => hostActs_withRecords rest s
  | .bindImage bytes :: rest, s => hostActs_withRecords rest (s.bindImage bytes)
  | .powerOn :: rest, s => hostActs_withRecords rest s.powerOn

/-- What the block finds on the channel is served without a look at the sink. -/
theorem serve_withRecords (s : State) (a : Arrival) :
    serve (s.withUnread pre id) a = mapNext (·.withUnread pre id) (serve s a) := by
  cases a with
  | waiting => rfl
  | abandoned rest => rfl
  | broken r => rfl
  | command words rest =>
    simp only [serve, runWords]
    cases decode words with
    | error e => rfl
    | ok r => exact exec_withUnread pre id r.1 (s.setInput rest) fun _ => rfl

theorem step_withRecords (s : State) : step (s.withUnread pre id) = mapNext (·.withUnread pre id) (step s) := by
  have hacts : hostActs (s.withUnread pre id).input (s.withUnread pre id) = (hostActs s.input s).withUnread pre id :=
    hostActs_withRecords pre s.input s
  unfold step
  rw [hacts]
  exact serve_withRecords pre _ _

/-- Both output channels of the later state continue those of the earlier one. -/
def OutputsExtend (s t : State) : Prop := s.sink <+: t.sink ∧ s.responses <+: t.responses

theorem OutputsExtend.refl (s : State) : OutputsExtend s s := ⟨List.prefix_rfl, List.prefix_rfl⟩

theorem OutputsExtend.trans {u : State} (h : OutputsExtend s t) (h' : OutputsExtend t u) : OutputsExtend s u :=
  ⟨h.1.trans h'.1, h.2.trans h'.2⟩

theorem outputsExtend_respond (s : State) (st : Status) (v : Word) : OutputsExtend s (s.respond st v) :=
  ⟨List.prefix_rfl, List.prefix_append _ _⟩

/-- Every command only appends records and responses (R76, R93). -/
theorem outputsExtend_exec {i : Instr} (h : exec i s = .next t) : OutputsExtend s t := by
  rcases exec_cases h with ⟨m, -, rfl⟩ | ⟨-, ⟨st, v, rfl⟩ | ⟨w, ht, name, -, -, -, -, rfl⟩ | ⟨-, f, rfl⟩ |
    ⟨-, s1, n, hs1, -, rfl⟩ | ⟨-, rfl⟩⟩
  case inl => exact ⟨List.prefix_rfl, List.prefix_append _ _⟩
  case inr.inl => exact outputsExtend_respond s st v
  case inr.inr.inl => exact ⟨List.prefix_append _ _, List.prefix_append _ _⟩
  case inr.inr.inr.inl => exact ⟨List.prefix_rfl, List.prefix_append _ _⟩
  case inr.inr.inr.inr.inl =>
    obtain ⟨_, _, _, _, _, _, _, _, _, rfl⟩ := encodeTile_frame hs1
    obtain ⟨_, _, _, e⟩ := advanceCursor_frame _
    rw [e]
    exact ⟨List.prefix_append _ _, List.prefix_append _ _⟩
  case inr.inr.inr.inr.inr =>
    obtain ⟨_, e⟩ := finishOutputs_frame s
    rw [e]
    exact ⟨List.prefix_append _ _, List.prefix_append _ _⟩

/-- What the host does before a command leaves both output channels alone. -/
theorem outputsExtend_hostActs (inp : List HostInput) (s : State) : OutputsExtend s (hostActs inp s) :=
  hostActs_keeps (P := OutputsExtend s) (fun _ _ h => h) (fun _ h => h) (fun _ _ h => h) inp s (.refl s)

/-- Settles O51: the step commutes with records put before the sink, and each part of a step only appends. -/
theorem sinkAppendOnlyNeverRead : Obligations.SinkAppendOnlyNeverRead := by
  refine ⟨fun s pre => step_withRecords pre s, fun s t h => ?_⟩
  have hready (rest : List HostInput) : OutputsExtend s ((hostActs s.input s).setInput rest) :=
    outputsExtend_hostActs s.input s
  rcases step_cases h with rfl | ⟨rest, rfl⟩ | ⟨i, rest, he⟩ | ⟨rest, rfl⟩
  · exact outputsExtend_hostActs s.input s
  · exact hready rest
  · exact (hready rest).trans (outputsExtend_exec he)
  · exact (hready rest).trans (outputsExtend_respond _ _ _)

end Sys2Proof.Machine
end

section
/-! SUPPORT. The decoder and the encoder: headers by their fields, name words and their padding. -/

namespace Sys2Proof

/-! ### Headers -/

theorem extractLsb'_eq_zero_iff {m : Nat} (x : BitVec m) (lo n : Nat) :
    x.extractLsb' lo n = 0 ↔ x.toNat / 2 ^ lo % 2 ^ n = 0 := by
  rw [← BitVec.toNat_inj, BitVec.extractLsb'_toNat, Nat.shiftRight_eq_div_pow]
  rfl

/-- OP 0x01: the MODE bit (R83). -/
theorem decodeCommand_runStart {h : Word} (ho : opField h = 1) (hz : h.extractLsb' 1 23 = 0) (pl : List Word) :
    decodeCommand h pl = .ok (.runStart (modeOfBit (h.getLsbD 0))) := by
  simp [decodeCommand, ho, hz]

/-- OP 0x02: NAME_LEN, and the sizes and the name words of the payload (R84, R85). -/
theorem decodeCommand_imageBegin {h : Word} (ho : opField h = 2) (hz : h.extractLsb' 16 8 = 0) (w ht : Word)
    (names : List Word) :
    decodeCommand h (w :: ht :: names) = .ok (.imageBegin w ht (nameBytes (nameLenField h) names)) := by
  rw [decodeCommand, if_neg (by rw [ho]; decide), if_pos ho, if_pos hz]

/-- OP 0x03 (R86). -/
theorem decodeCommand_tile {h : Word} (ho : opField h = 3) (hz : immField h = 0) (pl : List Word) :
    decodeCommand h pl = .ok .tile := by
  simp [decodeCommand, ho, hz]

/-- OP 0x04 (R87). -/
theorem decodeCommand_finalize {h : Word} (ho : opField h = 4) (hz : immField h = 0) (pl : List Word) :
    decodeCommand h pl = .ok .finalize := by
  simp [decodeCommand, ho, hz]

/-- OP 0x05: the register number (R88). -/
theorem decodeCommand_readReg {h : Word} (ho : opField h = 5) (hz : h.extractLsb' 8 16 = 0) (pl : List Word) :
    decodeCommand h pl = .ok (.readReg (h.extractLsb' 0 8)) := by
  simp [decodeCommand, ho, hz]

/-- The encoder writes a header and as many payload words as it announces, from which the command is read again. -/
theorem encode_spec {i : Instr} (hi : i.wellFormed = true) :
    ∃ h payload, encode i = h :: payload ∧ payload.length = payloadLength h ∧ decodeCommand h payload = .ok i := by
  cases i with
  | runStart m => cases m <;> exact ⟨_, _, rfl, rfl, rfl⟩
  | imageBegin w ht name =>
    obtain ⟨_, _, e, hl⟩ := Laws.HeaderLength.imageBegin w ht name hi
    cases e
    have hn : name.length ≤ 65535 := of_decide_eq_true hi
    have hz : (header 2 (BitVec.ofNat 24 name.length)).extractLsb' 16 8 = 0 := by
      rw [extractLsb'_header _ _ _ _ (by decide), extractLsb'_eq_zero_iff, BitVec.toNat_ofNat]
      omega
    refine ⟨_, _, rfl, hl, ?_⟩
    rw [decodeCommand_imageBegin (opField_header _ _) hz, nameLenField_header, BitVec.toNat_ofNat,
      show name.length % 2 ^ 24 % 65536 = name.length by omega, nameBytes_packName]
  | tile => exact ⟨_, _, rfl, rfl, rfl⟩
  | finalize => exact ⟨_, _, rfl, rfl, rfl⟩
  | readReg n =>
    obtain ⟨_, _, e, hl⟩ := Laws.HeaderLength.readReg n hi
    cases e
    have hz : (header 5 (n.setWidth 24)).extractLsb' 8 16 = 0 := by
      rw [extractLsb'_header _ _ _ _ (by decide), extractLsb'_eq_zero_iff, BitVec.toNat_setWidth]
      omega
    have hreg : (header 5 (n.setWidth 24)).extractLsb' 0 8 = n := by
      rw [extractLsb'_header _ _ _ _ (by decide)]
      refine BitVec.eq_of_toNat_eq ?_
      rw [BitVec.extractLsb'_toNat, BitVec.toNat_setWidth, Nat.shiftRight_zero]
      omega
    refine ⟨_, _, rfl, hl, ?_⟩
    rw [decodeCommand_readReg (opField_header _ _) hz, hreg]

/-- Settles O1: the decoder takes the header and its payload, and whatever follows is left over. -/
theorem decodeEncodeRoundTrip : Obligations.DecodeEncodeRoundTrip := by
  intro i rest hi
  obtain ⟨h, payload, he, hl, hd⟩ := encode_spec hi
  rw [he, List.cons_append, decode_words hl, hd]
  rfl

/-- Settles O2: each command's words are those of the encoder, and OP 6 is none of the five. -/
theorem specWordsDecode : Obligations.SpecWordsDecode :=
  ⟨decodeEncodeRoundTrip (.runStart .mode0) [] rfl,
    decodeEncodeRoundTrip (.imageBegin 8 8 [0x72, 0x65, 0x64, 0x2E, 0x70, 0x6E, 0x67]) [] rfl,
    decodeEncodeRoundTrip .tile [] rfl, decodeEncodeRoundTrip .finalize [] rfl,
    decodeEncodeRoundTrip (.readReg 31) [] rfl, rfl⟩

end Sys2Proof
end

section
/-! SUPPORT. Name words and their padding: what the encoder writes for a command that was decoded. -/

namespace Sys2Proof

/-! ### Name words -/

/-- A name word whose bytes from number `k` on, the padding, are 0 (R85). -/
def clearPadding (k : Nat) (v : Word) : Word := BitVec.ofNat 32 (v.toNat % 2 ^ (8 * k))

theorem clearPadding_toNat {k : Nat} (hk : k ≤ 4) (v : Word) : (clearPadding k v).toNat = v.toNat % 2 ^ (8 * k) := by
  rw [clearPadding, BitVec.toNat_ofNat]
  exact Nat.mod_eq_of_lt ((Nat.mod_lt _ (Nat.two_pow_pos _)).trans_le (Nat.pow_le_pow_right (by decide) (by omega)))

theorem clearPadding_four (v : Word) : clearPadding 4 v = v :=
  BitVec.eq_of_toNat_eq ((clearPadding_toNat le_rfl v).trans (Nat.mod_eq_of_lt v.isLt))

/-- Bit `i` of a name word without its padding. -/
theorem clearPadding_getLsbD {k : Nat} (hk : k ≤ 4) (v : Word) (i : Nat) :
    (clearPadding k v).getLsbD i = (decide (i < 8 * k) && v.getLsbD i) := by
  rw [BitVec.getLsbD, clearPadding_toNat hk, Nat.testBit_mod_two_pow]
  rfl

/-- The first name bytes of a word, packed again, are the word without its padding. -/
theorem packName_take_wordBytes (v : Word) {k : Nat} (h0 : 0 < k) (hk : k ≤ 4) :
    packName ((wordBytes v).take k) = [clearPadding k v] := by
  have hword {a b c d : Byte} (h : ∀ i < 32, (packWord a b c d).getLsbD i = (decide (i < 8 * k) && v.getLsbD i)) :
      packWord a b c d = clearPadding k v :=
    BitVec.eq_of_getLsbD_eq fun i hi => (h i hi).trans (clearPadding_getLsbD hk v i).symm
  obtain rfl | rfl | rfl | rfl : k = 1 ∨ k = 2 ∨ k = 3 ∨ k = 4 := by omega
  all_goals
    refine congrArg (fun w => [w]) (hword fun i hi => ?_)
    simp only [packWord_getLsbD, BitVec.getLsbD_extractLsb']
    split_ifs <;> simp <;> grind

/-- Whole name words are packed one by one. -/
theorem packName_flatMap_wordBytes (bytes : List Byte) : ∀ names : List Word,
    packName (names.flatMap wordBytes ++ bytes) = names ++ packName bytes
  | [] => rfl
  | v :: names => by
    have hv : packName (wordBytes v) = [v] := by
      have := packName_take_wordBytes v (k := 4) (by decide) le_rfl
      rwa [clearPadding_four] at this
    obtain hcons : packWord _ _ _ _ = v := List.cons.inj hv |>.1
    simp [wordBytes, packName, packName_flatMap_wordBytes bytes names, hcons]

theorem flatMap_wordBytes_length : ∀ names : List Word, (names.flatMap wordBytes).length = 4 * names.length
  | [] => rfl
  | v :: names => by
    rw [List.flatMap_cons, List.length_append, flatMap_wordBytes_length names, wordBytes_length, List.length_cons]
    omega

theorem nameBytes_length (n : Nat) (names : List Word) : (nameBytes n names).length = min n (4 * names.length) := by
  rw [nameBytes, List.length_take, flatMap_wordBytes_length]

/-- The last of the name words holds the `k` bytes that are left. -/
theorem nameBytes_append_last (init : List Word) (last : Word) (k : Nat) :
    nameBytes (4 * init.length + k) (init ++ [last]) = init.flatMap wordBytes ++ (wordBytes last).take k := by
  have hi := flatMap_wordBytes_length init
  rw [nameBytes, List.flatMap_append, List.flatMap_singleton, List.take_append, hi, Nat.add_sub_cancel_left,
    List.take_of_length_le (by omega)]

/-- Packing the name bytes of some words again gives the same words, the last without its padding. -/
theorem packName_nameBytes (init : List Word) (last : Word) {k : Nat} (h0 : 0 < k) (hk : k ≤ 4) :
    packName (nameBytes (4 * init.length + k) (init ++ [last])) = init ++ [clearPadding k last] := by
  rw [nameBytes_append_last, packName_flatMap_wordBytes, packName_take_wordBytes last h0 hk]

/-- The padding of the last name word does not matter (R85). -/
theorem nameBytes_congr_last (init : List Word) {v last : Word} {k : Nat} (h0 : 0 < k) (hk : k ≤ 4)
    (h : clearPadding k v = clearPadding k last) :
    nameBytes (4 * init.length + k) (init ++ [v]) = nameBytes (4 * init.length + k) (init ++ [last]) := by
  have hlen (u : Word) : (nameBytes (4 * init.length + k) (init ++ [u])).length = 4 * init.length + k := by
    rw [nameBytes_length, List.length_append, List.length_singleton]
    omega
  have hpack (u : Word) := nameBytes_packName (nameBytes (4 * init.length + k) (init ++ [u]))
  rw [← hpack v, ← hpack last, hlen, hlen, packName_nameBytes init v h0 hk, packName_nameBytes init last h0 hk, h]

/-! ### Decoded words -/

theorem opField_toNat (h : Word) : (opField h).toNat = h.toNat / 2 ^ 24 := by
  rw [opField, BitVec.extractLsb'_toNat, Nat.shiftRight_eq_div_pow]
  omega

theorem immField_toNat (h : Word) : (immField h).toNat = h.toNat % 2 ^ 24 := by
  rw [immField, BitVec.extractLsb'_toNat, Nat.shiftRight_zero]

theorem nameLenField_eq (h : Word) : nameLenField h = h.toNat % 2 ^ 16 := by
  rw [nameLenField, BitVec.extractLsb'_toNat, Nat.shiftRight_zero]

/-- A header is what the encoder makes of its OP and its operand. -/
theorem header_eq {h : Word} {op : BitVec 8} {imm : BitVec 24} (ho : opField h = op) (hi : immField h = imm) :
    header op imm = h := by
  rw [← ho, ← hi, header_fields]

theorem payloadLength_of_op_ne {h : Word} (ho : opField h ≠ 2) : payloadLength h = 0 := if_neg ho

theorem payloadLength_of_op {h : Word} (ho : opField h = 2) : payloadLength h = 2 + (nameLenField h + 3) / 4 := if_pos ho

/-- The encoder writes the header of the RUN_START it stands for. -/
theorem header_runStart {h : Word} (ho : opField h = 1) (hz : h.extractLsb' 1 23 = 0) :
    header 1 (if modeBit (modeOfBit (h.getLsbD 0)) then 1 else 0) = h := by
  rw [extractLsb'_eq_zero_iff] at hz
  have hbit : h.getLsbD 0 = decide (h.toNat % 2 = 1) := Nat.testBit_zero _
  refine header_eq ho (BitVec.eq_of_toNat_eq ((immField_toNat h).trans ?_))
  by_cases hm : h.toNat % 2 = 1
  · rw [hbit, decide_eq_true hm]
    change _ = 1
    omega
  · rw [hbit, decide_eq_false hm]
    change _ = 0
    omega

theorem header_imageBegin {h : Word} (ho : opField h = 2) (hz : h.extractLsb' 16 8 = 0) :
    header 2 (BitVec.ofNat 24 (nameLenField h)) = h := by
  rw [extractLsb'_eq_zero_iff] at hz
  refine header_eq ho (BitVec.eq_of_toNat_eq ((immField_toNat h).trans ?_))
  rw [BitVec.toNat_ofNat, nameLenField_eq]
  omega

theorem header_readReg {h : Word} (ho : opField h = 5) (hz : h.extractLsb' 8 16 = 0) :
    header 5 ((h.extractLsb' 0 8).setWidth 24) = h := by
  rw [extractLsb'_eq_zero_iff] at hz
  refine header_eq ho (BitVec.eq_of_toNat_eq ((immField_toNat h).trans ?_))
  rw [BitVec.toNat_setWidth, BitVec.extractLsb'_toNat, Nat.shiftRight_zero]
  omega

/-- The words of an IMAGE_BEGIN with NAME_LEN `n`: the name has `n` bytes, and the encoder writes them with a clear padding. -/
theorem encode_imageBegin_of_words {h : Word} (ho : opField h = 2) (hz : h.extractLsb' 16 8 = 0) (w ht : Word)
    (init : List Word) (last : Word) {k : Nat} (h0 : 0 < k) (hk : k ≤ 4) (hn : nameLenField h = 4 * init.length + k) :
    (nameBytes (nameLenField h) (init ++ [last])).length = nameLenField h ∧
      encode (.imageBegin w ht (nameBytes (nameLenField h) (init ++ [last]))) =
        h :: w :: ht :: init ++ [clearPadding k last] := by
  have hlen : (nameBytes (nameLenField h) (init ++ [last])).length = nameLenField h := by
    rw [nameBytes_length, List.length_append, List.length_singleton]
    omega
  refine ⟨hlen, ?_⟩
  rw [encode, hlen, header_imageBegin ho hz, hn, packName_nameBytes init last h0 hk]
  rfl

/-- The decoder on the words of an IMAGE_BEGIN whose last name word holds `k` bytes. -/
theorem decode_imageBegin_words {h : Word} (ho : opField h = 2) (hz : h.extractLsb' 16 8 = 0) (w ht : Word)
    (init : List Word) (v : Word) {k : Nat} (h0 : 0 < k) (hk : k ≤ 4) (hn : nameLenField h = 4 * init.length + k)
    (rest : List Word) :
    decode (h :: w :: ht :: init ++ v :: rest) =
      .ok (.imageBegin w ht (nameBytes (nameLenField h) (init ++ [v])), rest) := by
  have hl : (w :: ht :: (init ++ [v])).length = payloadLength h := by
    rw [payloadLength_of_op ho]
    simp only [List.length_cons, List.length_append, List.length_nil]
    omega
  have := decode_words (rest := rest) hl
  rw [decodeCommand_imageBegin ho hz] at this
  simpa [Except.map] using this

/-- The words `ws` hold the encoder's words for `i` and then `rest`, but for the padding of a last name word, which the decoder
does not look at (R85). -/
def EncodedUpToPadding (i : Instr) (ws rest : List Word) : Prop :=
  ((∀ w ht name, i = .imageBegin w ht name → name.length % 4 = 0) ∧ ws = encode i ++ rest) ∨
  ∃ w ht name front last, i = .imageBegin w ht name ∧ name.length % 4 ≠ 0 ∧ ws = front ++ last :: rest ∧
    encode i = front ++ [clearPadding (name.length % 4) last] ∧
    ∀ v, clearPadding (name.length % 4) v = clearPadding (name.length % 4) last →
      decode (front ++ v :: rest) = .ok (i, rest)

/-- A command that is its header alone has no padding. -/
theorem encodedUpToPadding_of_header {i : Instr} {h : Word} (hi : ∀ w ht name, i ≠ .imageBegin w ht name)
    (he : encode i = [h]) (rest : List Word) : EncodedUpToPadding i (h :: rest) rest :=
  .inl ⟨fun w ht name e => absurd e (hi w ht name), by rw [he]; rfl⟩

/-- An IMAGE_BEGIN without a name has no padding either; any other has it in the last of its name words. -/
theorem encodedUpToPadding_imageBegin {h : Word} (ho : opField h = 2) (hz : h.extractLsb' 16 8 = 0) (w ht : Word)
    {names : List Word} (hl : names.length = (nameLenField h + 3) / 4) (rest : List Word) :
    EncodedUpToPadding (.imageBegin w ht (nameBytes (nameLenField h) names)) (h :: w :: ht :: names ++ rest) rest := by
  rcases List.eq_nil_or_concat names with rfl | ⟨init, last, rfl⟩
  · have hn : nameLenField h = 0 := by
      rw [List.length_nil] at hl
      omega
    have henc : encode (.imageBegin w ht []) = [h, w, ht] := by
      rw [encode, List.length_nil, ← hn, header_imageBegin ho hz]
      rfl
    rw [hn]
    exact .inl ⟨fun _ _ _ e => by cases e; rfl, congrArg (· ++ rest) henc.symm⟩
  · rw [List.concat_eq_append] at *
    obtain ⟨k, h0, hk, hn⟩ : ∃ k, 0 < k ∧ k ≤ 4 ∧ nameLenField h = 4 * init.length + k := by
      rw [List.length_append, List.length_singleton] at hl
      exact ⟨nameLenField h - 4 * init.length, by omega, by omega, by omega⟩
    obtain ⟨hlen, henc⟩ := encode_imageBegin_of_words ho hz w ht init last h0 hk hn
    rcases hk.eq_or_lt with rfl | hk4
    · rw [clearPadding_four] at henc
      exact .inl ⟨fun _ _ _ e => by cases e; omega, congrArg (· ++ rest) henc.symm⟩
    · have hmod : (nameBytes (nameLenField h) (init ++ [last])).length % 4 = k := by omega
      refine .inr ⟨w, ht, _, h :: w :: ht :: init, last, rfl, by omega, by simp, by rw [hmod, henc], fun v hv => ?_⟩
      rw [hmod] at hv
      rw [decode_imageBegin_words ho hz w ht init v h0 hk hn, hn, nameBytes_congr_last init h0 hk hv]

/-- What a command was decoded from: the words that the encoder writes for it, up to padding. -/
theorem encodedUpToPadding_of_decode {ws : List Word} {i : Instr} {rest : List Word} (h : decode ws = .ok (i, rest)) :
    EncodedUpToPadding i ws rest := by
  obtain ⟨hd, pl, rfl, hl, hc⟩ := decode_inv h
  have hnil (ho : opField hd ≠ 2) : pl = [] := List.length_eq_zero_iff.mp (hl.trans (payloadLength_of_op_ne ho))
  rcases decodeCommand_inv hc with ⟨ho, hz, rfl⟩ | ⟨ho, hz, w, ht, names, rfl, rfl⟩ | ⟨ho, hz, rfl⟩ | ⟨ho, hz, rfl⟩ |
    ⟨ho, hz, rfl⟩
  case inr.inl =>
    rw [payloadLength_of_op ho, List.length_cons, List.length_cons] at hl
    exact encodedUpToPadding_imageBegin ho hz w ht (by omega) rest
  all_goals rw [hnil (by rw [ho]; decide)]
  case inl => exact encodedUpToPadding_of_header (by simp) (by rw [encode, header_runStart ho hz]) rest
  case inr.inr.inl => exact encodedUpToPadding_of_header (by simp) (by rw [encode, header_eq ho hz]) rest
  case inr.inr.inr.inl => exact encodedUpToPadding_of_header (by simp) (by rw [encode, header_eq ho hz]) rest
  case inr.inr.inr.inr => exact encodedUpToPadding_of_header (by simp) (by rw [encode, header_readReg ho hz]) rest

/-- Settles O3: the words taken and the encoder's differ at most in the padding of the last one. -/
theorem decodedWordsAreTheEncoders : Obligations.DecodedWordsAreTheEncoders := by
  intro ws i rest h
  dsimp only
  rcases encodedUpToPadding_of_decode h with ⟨hpad, rfl⟩ | ⟨w, ht, name, front, last, rfl, hmod, rfl, henc, hsame⟩
  · exact ⟨List.drop_left, List.length_append.symm, (List.dropLast_prefix _).trans (List.prefix_append _ _), fun _ => rfl,
      fun w ht name hi hne => absurd (hpad w ht name hi) hne⟩
  · have hk : name.length % 4 ≤ 4 := by omega
    rw [henc]
    refine ⟨?_, ?_, ?_, fun hpad => absurd (hpad _ _ _ rfl) hmod, fun _ _ _ hi _ => ?_⟩
    · simp
    · simp; omega
    · simp
    · cases hi
      rw [List.length_append, List.length_singleton, Nat.add_sub_cancel]
      simp only [List.getElem?_append_right le_rfl, Nat.sub_self, List.getElem?_cons_zero, Option.getD_some,
        clearPadding_toNat hk, Nat.mod_mod, true_and]
      intro v hv
      have hset : (front ++ last :: rest).set front.length v = front ++ v :: rest := by simp
      rw [hset]
      exact hsame v (congrArg (BitVec.ofNat 32) hv)

end Sys2Proof
end

section
/-! SUPPORT. Illegal headers, and one command from the channel to its response. -/

namespace Sys2Proof.Machine

variable {s t : State}

/-! ### Legal headers -/

/-- A mask that drops the low `k` bits keeps the others. -/
theorem getLsbD_and_mask (h : Word) (k : Nat) {i : Nat} (hi : i < 32) :
    (h &&& BitVec.allOnes 32 <<< k).getLsbD i = (decide (k ≤ i) && h.getLsbD i) := by
  rw [BitVec.getLsbD_and, BitVec.getLsbD_shiftLeft, BitVec.getLsbD_allOnes]
  by_cases hki : k ≤ i
  · simp [hi, hki, Nat.not_lt.mpr hki, Nat.lt_of_le_of_lt (Nat.sub_le i k) hi]
  · simp [hki, Nat.lt_of_not_le hki]

/-- Such a mask compares OP and the operand bits from `k` on (R81). -/
theorem and_mask_eq_header_iff (h : Word) (op : BitVec 8) {k : Nat} (hk : k ≤ 24) :
    h &&& BitVec.allOnes 32 <<< k = header op 0 ↔ opField h = op ∧ h.extractLsb' k (24 - k) = 0 := by
  constructor
  · intro e
    have he (i : Nat) (hi : i < 32) (hki : k ≤ i) : h.getLsbD i = (header op 0).getLsbD i := by
      rw [← e, getLsbD_and_mask h k hi, decide_eq_true hki, Bool.true_and]
    constructor <;> refine BitVec.eq_of_getLsbD_eq fun i hi => ?_
    · rw [opField, BitVec.getLsbD_extractLsb', decide_eq_true hi, Bool.true_and, he _ (by omega) (by omega), header_getLsbD,
        if_neg (by omega), Nat.add_sub_cancel_left]
    · rw [BitVec.getLsbD_extractLsb', decide_eq_true hi, Bool.true_and, he _ (by omega) (by omega), header_getLsbD,
        if_pos (by omega)]
      simp
  · rintro ⟨rfl, hz⟩
    refine BitVec.eq_of_getLsbD_eq fun i hi => ?_
    rw [getLsbD_and_mask h k hi, header_getLsbD]
    split
    case isTrue hlt =>
      have := congrArg (BitVec.getLsbD · (i - k)) hz
      rw [BitVec.getLsbD_extractLsb'] at this
      by_cases hki : k ≤ i
      · simpa [hki, show i - k < 24 - k by omega] using this
      · simp [hki]
    case isFalse hge =>
      rw [opField, BitVec.getLsbD_extractLsb', decide_eq_true (show k ≤ i by omega), decide_eq_true (show i - 24 < 8 by omega),
        Nat.add_sub_cancel' (by omega)]

/-- A header is legal exactly if its OP is defined, its must-be-0 bits are 0, and its register is implemented (R82, R89). -/
theorem illegalHeader_eq_false_iff (h : Word) : illegalHeader h = false ↔
    opField h = 1 ∧ h.extractLsb' 1 23 = 0 ∨ opField h = 2 ∧ h.extractLsb' 16 8 = 0 ∨ opField h = 3 ∧ immField h = 0 ∨
    opField h = 4 ∧ immField h = 0 ∨ opField h = 5 ∧ h.extractLsb' 8 16 = 0 ∧ regImplemented (h.extractLsb' 0 8) = true := by
  have h1 : h &&& 0xFFFFFFFE = 0x01000000 ↔ _ := and_mask_eq_header_iff h 1 (k := 1) (by decide)
  have h2 : h &&& 0xFFFF0000 = 0x02000000 ↔ _ := and_mask_eq_header_iff h 2 (k := 16) (by decide)
  have h5 : h &&& 0xFFFFFF00 = 0x05000000 ↔ _ := and_mask_eq_header_iff h 5 (k := 8) (by decide)
  have hfull (op : BitVec 8) : h = header op 0 ↔ opField h = op ∧ immField h = 0 := by
    constructor
    · rintro rfl
      exact ⟨opField_header op 0, immField_header op 0⟩
    · rintro ⟨ho, hi⟩
      exact (header_eq ho hi).symm
  have h3 : h = 0x03000000 ↔ _ := hfull 3
  have h4 : h = 0x04000000 ↔ _ := hfull 4
  simp only [illegalHeader, Bool.not_eq_false', Bool.or_eq_true, Bool.and_eq_true, beq_iff_eq, h1, h2, h3, h4, h5, or_assoc,
    and_assoc]

/-- The decoder on the words of one command. -/
theorem decode_whole {h : Word} {payload : List Word} (hl : payload.length = payloadLength h) :
    decode (h :: payload) = (decodeCommand h payload).map fun i => (i, []) := by
  simpa using decode_words (rest := []) hl

/-- A legal header with its payload decodes to a well-formed command. -/
theorem decode_of_legal {h : Word} {payload : List Word} (hl : payload.length = payloadLength h)
    (hlegal : illegalHeader h = false) : ∃ i, i.wellFormed = true ∧ decode (h :: payload) = .ok (i, []) := by
  have hdec {i : Instr} (hd : decodeCommand h payload = .ok i) : decode (h :: payload) = .ok (i, []) := by
    rw [decode_whole hl, hd]
    rfl
  rcases (illegalHeader_eq_false_iff h).mp hlegal with ⟨ho, hz⟩ | ⟨ho, hz⟩ | ⟨ho, hz⟩ | ⟨ho, hz⟩ | ⟨ho, hz, hreg⟩
  · exact ⟨_, rfl, hdec (decodeCommand_runStart ho hz _)⟩
  · rw [payloadLength_of_op ho] at hl
    obtain ⟨w, ht, names, rfl⟩ : ∃ w ht names, payload = w :: ht :: names := by
      match payload, hl with
      | w :: ht :: names, _ => exact ⟨w, ht, names, rfl⟩
      | [_], hl => rw [List.length_singleton] at hl; omega
      | [], hl => rw [List.length_nil] at hl; omega
    refine ⟨_, ?_, hdec (decodeCommand_imageBegin ho hz w ht names)⟩
    refine decide_eq_true ?_
    rw [nameBytes_length, nameLenField_eq]
    omega
  · exact ⟨_, rfl, hdec (decodeCommand_tile ho hz _)⟩
  · exact ⟨_, rfl, hdec (decodeCommand_finalize ho hz _)⟩
  · exact ⟨.readReg _, hreg, hdec (decodeCommand_readReg ho hz _)⟩

/-- An illegal header decodes to no command, or to a READ_REG of a register that is not implemented (log entry 8). -/
theorem decode_of_illegal {h : Word} {payload rest : List Word} {i : Instr} (hill : illegalHeader h = true)
    (hd : decode (h :: payload) = .ok (i, rest)) : ∃ n, i = .readReg n ∧ regImplemented n = false := by
  obtain ⟨_, pl, e, -, hc⟩ := decode_inv hd
  cases e
  have hlegal : ¬ illegalHeader h = false := by simp [hill]
  rw [illegalHeader_eq_false_iff] at hlegal
  rcases decodeCommand_inv hc with ⟨ho, hz, -⟩ | ⟨ho, hz, -⟩ | ⟨ho, hz, -⟩ | ⟨ho, hz, -⟩ | ⟨ho, hz, rfl⟩
  case inr.inr.inr.inr =>
    refine ⟨_, rfl, Bool.eq_false_of_not_eq_true fun hreg => hlegal ?_⟩
    exact .inr (.inr (.inr (.inr ⟨ho, hz, hreg⟩)))
  all_goals exact absurd (by simp [ho, hz]) hlegal

/-! ### One command on the channel -/

/-- The step on a channel that holds one whole command and the wait for its response. -/
theorem step_of_issues {h : Word} {payload : List Word} {rest : List HostInput} (hl : payload.length = payloadLength h)
    (hi : issues s h payload rest) : step s = runWords (h :: payload) (s.setInput rest) :=
  step_of_words hl hi

/-- Words that are no command are rejected (R89). -/
theorem runWords_of_error {words : List Word} {e : DecodeError} (h : decode words = .error e) (s : State) :
    runWords words s = .next (s.reject .illegalCommand) := by
  rw [runWords, h]

theorem regValue_of_not_implemented {n : BitVec 8} (h : regImplemented n = false) (s : State) : regValue s n = none :=
  Option.not_isSome_iff_eq_none.mp (by rw [regValue_isSome, h]; exact Bool.false_ne_true)

/-- Settles O4: by the fields that its masks compare, an illegal header is no command, or one that READ_REG itself rejects. -/
theorem illegalEncodingRejected : Obligations.IllegalEncodingRejected := by
  intro h payload hl
  refine ⟨fun hill s rest hi => ?_, decode_of_legal hl⟩
  rw [step_of_issues hl hi]
  cases hd : decode (h :: payload) with
  | error e => exact runWords_of_error hd _
  | ok r =>
    obtain ⟨n, hn, hreg⟩ := decode_of_illegal hill hd
    rw [runWords_of_decode hd, hn]
    exact exec_readReg_of_none (regValue_of_not_implemented hreg _)

end Sys2Proof.Machine
end

section
/-! SUPPORT. The response of each command, and the words it takes off the channel. -/

namespace Sys2Proof.Machine

variable {s t : State}

/-- How a command answers: a rejection and nothing else, the value of a register, or OK or a fault with the value 0. -/
theorem exec_answer {i : Instr} (h : exec i s = .next t) :
    (∃ st, isRejection st = true ∧ (∀ n, i = .readReg n → regValue s n = none) ∧ t = s.reject st) ∨
    (∃ n v, i = .readReg n ∧ regValue s n = some v ∧ t = s.respond .ok v) ∨
    ((∀ n, i ≠ .readReg n) ∧ ∃ st, isRejection st = false ∧ t.responses = s.responses ++ [⟨st, 0⟩]) := by
  cases i with
  | runStart m => cases h; exact .inr (.inr ⟨nofun, .ok, rfl, rfl⟩)
  | imageBegin w ht name =>
    change execImageBegin w ht name s = .next t at h
    rcases execImageBegin_cases w ht name s with ⟨st, e, hst⟩ | ⟨-, -, -, -, e⟩ | ⟨-, -, -, -, -, e⟩ <;> rw [e] at h <;> cases h
    · exact .inl ⟨st, by rcases hst with ⟨rfl, -⟩ | ⟨-, rfl | rfl⟩ <;> rfl, nofun, rfl⟩
    · exact .inr (.inr ⟨nofun, .ok, rfl, rfl⟩)
  | tile =>
    change execTile s = .next t at h
    rcases execTile_cases s with ⟨-, e⟩ | ⟨-, ⟨f, -, e⟩ | ⟨s1, n, hs1, ⟨-, e⟩ | ⟨-, e⟩⟩⟩ <;> rw [e] at h <;> cases h
    · exact .inl ⟨.badState, rfl, nofun, rfl⟩
    · exact .inr (.inr ⟨nofun, faultStatus f, by cases f <;> rfl, rfl⟩)
    · exact .inr (.inr ⟨nofun, .tileIndexOverflow, rfl, rfl⟩)
    · obtain ⟨_, _, _, _, _, _, _, _, _, rfl⟩ := encodeTile_frame hs1
      obtain ⟨_, _, _, e⟩ := advanceCursor_frame _
      exact .inr (.inr ⟨nofun, .ok, rfl, by rw [e]; rfl⟩)
  | finalize =>
    change execFinalize s = .next t at h
    rcases execFinalize_cases s with ⟨-, e⟩ | ⟨-, e⟩ <;> rw [e] at h <;> cases h
    · exact .inl ⟨.badState, rfl, nofun, rfl⟩
    · obtain ⟨_, e⟩ := finishOutputs_frame s
      exact .inr (.inr ⟨nofun, .ok, rfl, by rw [e]; rfl⟩)
  | readReg n =>
    change execReadReg n s = .next t at h
    rcases execReadReg_cases n s with ⟨hv, e⟩ | ⟨v, hv, e⟩ <;> rw [e] at h <;> cases h
    · exact .inl ⟨.illegalCommand, rfl, fun n' e => by cases e; exact hv, rfl⟩
    · exact .inr (.inl ⟨n, v, rfl, hv, rfl⟩)

/-- Settles O14: of the three ways to answer only the first is a rejection. -/
theorem rejectionHasNoEffect : Obligations.RejectionHasNoEffect := by
  intro i s t r h hr hrej
  rcases exec_answer h with ⟨st, -, -, rfl⟩ | ⟨n, v, -, -, rfl⟩ | ⟨-, st, hst, ht⟩
  · rw [← hr]
    rfl
  · cases List.append_cancel_left hr
    cases hrej
  · cases List.append_cancel_left (ht.symm.trans hr)
    rw [hst] at hrej
    cases hrej

/-! ### The words of a command -/

/-- A whole command's words are decoded to that command, with no word left over. -/
theorem decode_whole_ok {h : Word} {payload : List Word} (hl : payload.length = payloadLength h) {i : Instr}
    {after : List Word} (hd : decode (h :: payload) = .ok (i, after)) : after = [] ∧ decodeCommand h payload = .ok i := by
  rw [decode_whole hl] at hd
  cases hc : decodeCommand h payload with
  | error e => rw [hc] at hd; cases hd
  | ok j => rw [hc] at hd; cases hd; exact ⟨rfl, rfl⟩

/-- Only OP 0x02 is an IMAGE_BEGIN (R82). -/
theorem opField_of_imageBegin {h : Word} {payload : List Word} {w ht : Word} {name : List Byte}
    (hc : decodeCommand h payload = .ok (.imageBegin w ht name)) : opField h = 2 := by
  rcases decodeCommand_inv hc with ⟨-, -, e⟩ | ⟨ho, -⟩ | ⟨-, -, e⟩ | ⟨-, -, e⟩ | ⟨-, -, e⟩
  case inr.inl => exact ho
  all_goals cases e

/-- The register map does not look at the channel. -/
theorem regValue_setInput (s : State) (inp : List HostInput) (n : BitVec 8) : regValue (s.setInput inp) n = regValue s n := rfl

/-- Settles O7: words that are no command are rejected, and a command answers once. -/
theorem oneResponsePerCommand : Obligations.OneResponsePerCommand := by
  intro s h payload rest t hl hi hstep
  rw [step_of_issues hl hi] at hstep
  cases hd : decode (h :: payload) with
  | error e =>
    rw [runWords_of_error hd] at hstep
    cases hstep
    exact ⟨_, rfl, nofun, fun h0 => absurd rfl h0⟩
  | ok r =>
    obtain ⟨i, after⟩ := r
    obtain ⟨rfl, -⟩ := decode_whole_ok hl hd
    rw [runWords_of_decode hd] at hstep
    rcases exec_answer hstep with ⟨st, -, hread, rfl⟩ | ⟨n, v, rfl, hv, rfl⟩ | ⟨hi, st, -, ht⟩
    · refine ⟨_, rfl, fun n v e hv => ?_, fun h0 => absurd rfl h0⟩
      cases e
      have hnone := (regValue_setInput s rest n).symm.trans (hread n rfl)
      rw [hnone] at hv
      cases hv
    · exact ⟨_, rfl, fun n' v' e hv' => by cases e; rw [← Option.some.inj (hv.symm.trans hv')], fun _ => ⟨rfl, n, rfl⟩⟩
    · exact ⟨_, ht, fun n v e _ => by cases e; exact absurd rfl (hi n), fun h0 => absurd rfl h0⟩

/-- The payload's length, from the numeric value of the header (R90). -/
theorem payloadLength_eq (h : Word) :
    payloadLength h = if h.toNat / 2 ^ 24 = 2 then 2 + (h.toNat % 2 ^ 16 + 3) / 4 else 0 := by
  have hop : opField h = 2 ↔ h.toNat / 2 ^ 24 = 2 := by
    rw [← BitVec.toNat_inj, opField_toNat]
    rfl
  rw [payloadLength, nameLenField_eq]
  simp only [hop]

/-- Settles O5: a command and a rejection leave the channel alone, and only an IMAGE_BEGIN can be refused. -/
theorem commandLengthFromHeader : Obligations.CommandLengthFromHeader := by
  intro s h payload rest hl hi
  rw [← payloadLength_eq] at hl
  rw [step_of_issues hl hi]
  cases hd : decode (h :: payload) with
  | error e => exact .inl ⟨_, runWords_of_error hd _, rfl⟩
  | ok r =>
    rw [runWords_of_decode hd]
    rcases exec_total r.1 (s.setInput rest) with ⟨t, he⟩ | ⟨w, ht, name, hr, hready, -, -, hbound, he⟩
    · obtain ⟨-, -, -, -, -, hinput⟩ := exec_hostFields he
      exact .inl ⟨t, he, hinput⟩
    · have hop : opField h = 2 := opField_of_imageBegin (hr ▸ (decode_whole_ok hl hd).2)
      refine .inr ⟨?_, hready, hbound, he⟩
      rw [← opField_toNat, hop]
      rfl

end Sys2Proof.Machine
end

section
/-! SUPPORT. ENCODE_IMAGE: the IMAGE_BEGIN and the TILEs it expands to, run one after another (R98, R204, R272). -/

namespace Sys2Proof.Machine

variable {s t : State}

/-- `k` tiles of the active image are not yet encoded; with none left the image is complete (R204, R211). -/
def TilesLeft (k : Nat) (s : State) : Prop :=
  if k = 0 then s.runState = .ready
  else s.runState = .image ∧ cursorOrdinal s + k = s.imgW.toNat / 8 * (s.imgH.toNat / 8)

theorem tilesLeft_zero : TilesLeft 0 s ↔ s.runState = .ready := Iff.rfl

theorem tilesLeft_of_pos {k : Nat} (hk : 0 < k) :
    TilesLeft k s ↔ s.runState = .image ∧ cursorOrdinal s + k = s.imgW.toNat / 8 * (s.imgH.toNat / 8) := by
  rw [TilesLeft, if_neg hk.ne']

/-- The tiles after cursor row `y` of a grid with `h` rows of `w` tiles. -/
theorem grid_rows {w h y : Nat} (hy : y < h) : w * h = y * w + w + w * (h - (y + 1)) := by
  obtain ⟨d, rfl⟩ := Nat.exists_eq_add_of_lt hy
  rw [show y + d + 1 - (y + 1) = d by omega]
  ring

/-- AdvanceCursor (R211) leaves one tile less. -/
theorem tilesLeft_advanceCursor {k : Nat} (hx : s.curTX.toNat < s.imgW.toNat / 8) (hy : s.curTY.toNat < s.imgH.toNat / 8)
    (h : TilesLeft (k + 1) s) : TilesLeft k (advanceCursor s) := by
  obtain ⟨hr, hleft⟩ := (tilesLeft_of_pos k.succ_pos).mp h
  have hrows := grid_rows (w := s.imgW.toNat / 8) hy
  have hy1 : (s.curTY + 1).toNat = s.curTY.toNat + 1 := by bv_omega
  unfold cursorOrdinal at hleft
  rcases advanceCursor_cases s with ⟨hlt, e⟩ | ⟨hge, hlast, e⟩ | ⟨hge, hne, e⟩ <;> rw [e]
  · have hx1 : (s.curTX + 1).toNat = s.curTX.toNat + 1 := by bv_omega
    refine (tilesLeft_of_pos (by omega)).mpr ⟨hr, ?_⟩
    simp only [cursorOrdinal, hx1]
    omega
  · have hk : k = 0 := by
      rw [show s.imgH.toNat / 8 - (s.curTY.toNat + 1) = 0 by omega, Nat.mul_zero] at hrows
      omega
    rw [hk, tilesLeft_zero]
  · have hpos : 0 < s.imgW.toNat / 8 * (s.imgH.toNat / 8 - (s.curTY.toNat + 1)) := Nat.mul_pos (by omega) (by omega)
    refine (tilesLeft_of_pos (by omega)).mpr ⟨hr, ?_⟩
    simp only [cursorOrdinal, hy1, Nat.succ_mul]
    change _ + (0 : Nat) + k = _
    omega

/-- An accepted image has all its tiles before it (R201, R204). -/
theorem tilesLeft_acceptImage (w h : Word) (name : List Byte) (hw : w.toNat % 8 = 0) (hh : h.toNat % 8 = 0) :
    TilesLeft (w.toNat / 8 * (h.toNat / 8)) (acceptImage w h name s) := by
  by_cases hz : w = 0 ∨ h = 0
  · have hk : w.toNat / 8 * (h.toNat / 8) = 0 := by
      rcases hz with rfl | rfl <;> simp
    rw [hk, tilesLeft_zero]
    exact if_pos hz
  · have hk : 0 < w.toNat / 8 * (h.toNat / 8) := Nat.mul_pos (by bv_omega) (by bv_omega)
    refine (tilesLeft_of_pos hk).mpr ⟨if_neg hz, ?_⟩
    simp [acceptImage, cursorOrdinal]

/-- A TILE of the active image faults, or answers OK and leaves one tile less. -/
theorem exec_tile_of_tilesLeft {k : Nat} (hinv : BlockInvariant s) (h : TilesLeft (k + 1) s) :
    ∃ t, exec .tile s = .next t ∧
      (t.runState = .faulted ∨ TilesLeft k t ∧ t.responses = s.responses ++ [⟨.ok, 0⟩]) := by
  have hr := ((tilesLeft_of_pos k.succ_pos).mp h).1
  obtain ⟨hx, hy⟩ := hinv.cursor_in_grid hr
  rcases execTile_cases s with ⟨hne, -⟩ | ⟨-, ⟨f, -, e⟩ | ⟨s1, n, hs1, ⟨-, e⟩ | ⟨-, e⟩⟩⟩
  · exact absurd hr hne
  · exact ⟨_, e, .inl rfl⟩
  · exact ⟨_, e, .inl rfl⟩
  · refine ⟨_, e, .inr ⟨?_, ?_⟩⟩ <;> obtain ⟨_, _, _, _, _, _, _, _, _, rfl⟩ := encodeTile_frame hs1
    · exact tilesLeft_advanceCursor hx hy h
    · obtain ⟨_, _, _, e⟩ := advanceCursor_frame _
      rw [e]
      rfl

/-! ### Programs -/

theorem execAll_cons {i : Instr} (h : exec i s = .next t) (prog : List Instr) : execAll (i :: prog) s = execAll prog t := by
  rw [execAll, h]

/-- After a fault the TILEs that are left are rejected, and the run stays faulted (R246, R253). -/
theorem execAll_tiles_of_faulted : ∀ (k : Nat) {s : State}, s.runState = .faulted →
    ∃ t, execAll (List.replicate k .tile) s = .next t ∧ t.runState = .faulted
  | 0, s, h => ⟨s, rfl, h⟩
  | k + 1, s, h => by
    have he : exec .tile s = .next (s.reject .badState) := if_pos (by simp [h])
    rw [List.replicate_succ, execAll_cons he]
    exact execAll_tiles_of_faulted k h

/-- The TILEs of the active image run to its end, unless one faults. -/
theorem execAll_tiles : ∀ (k : Nat) {s : State}, BlockInvariant s → TilesLeft k s →
    ∃ t, execAll (List.replicate k .tile) s = .next t ∧
      (t.runState = .faulted ∨ t.runState = .ready ∧ t.responses = s.responses ++ List.replicate k ⟨.ok, 0⟩)
  | 0, s, _, h => ⟨s, rfl, .inr ⟨tilesLeft_zero.mp h, by simp⟩⟩
  | k + 1, s, hinv, h => by
    obtain ⟨t, he, hfault | ⟨hleft, hresp⟩⟩ := exec_tile_of_tilesLeft hinv h <;>
      rw [List.replicate_succ, execAll_cons he]
    · obtain ⟨u, hu, hf⟩ := execAll_tiles_of_faulted k hfault
      exact ⟨u, hu, .inl hf⟩
    · obtain ⟨u, hu, hend⟩ := execAll_tiles k (hinv.exec he) hleft
      refine ⟨u, hu, hend.imp_right (And.imp_right fun hresp' => ?_)⟩
      rw [hresp', hresp, List.replicate_succ, List.append_assoc]
      rfl

theorem expandEncodeImage_some {w h : Word} {name : List Byte} {prog : List Instr}
    (hp : expandEncodeImage w h name = some prog) : w.toNat % 8 = 0 ∧ h.toNat % 8 = 0 ∧
      prog = .imageBegin w h name :: List.replicate (w.toNat / 8 * (h.toNat / 8)) .tile := by
  unfold expandEncodeImage at hp
  split at hp
  case isTrue hal => exact ⟨hal.1, hal.2, (Option.some.inj hp).symm⟩
  case isFalse => cases hp

/-- An IMAGE_BEGIN that passes the checks of R201 is accepted. -/
theorem exec_imageBegin_of_accepted {w h : Word} (name : List Byte) (hr : s.runState = .ready) (hw : w.toNat % 8 = 0)
    (hh : h.toNat % 8 = 0) (hb : s.imageBound = true) (hlen : 4 * w.toNat * h.toNat ≤ s.imgLen) :
    exec (.imageBegin w h name) s = .next ((acceptImage w h name s).respond .ok 0) := by
  change execImageBegin w h name s = _
  rw [execImageBegin, if_neg (by simp [hr]), if_neg (by omega), if_neg (by simp [hb]), if_neg (by omega)]

/-- Settles O59: the image is accepted with all its tiles before it, and each TILE leaves one less. -/
theorem encodeImageRunsToTheEnd : Obligations.EncodeImageRunsToTheEnd := by
  intro s w h name prog hinv hr hb hlen hp
  obtain ⟨hw, hh, rfl⟩ := expandEncodeImage_some hp
  rw [List.length_cons, List.length_replicate]
  refine ⟨Nat.add_comm _ _, ?_⟩
  have hbegin := exec_imageBegin_of_accepted name hr hw hh hb hlen
  obtain ⟨t, ht, hend⟩ := execAll_tiles _ (hinv.exec hbegin) (tilesLeft_acceptImage (s := s) w h name hw hh)
  refine ⟨t, (execAll_cons hbegin _).trans ht, hend.imp_right (And.imp_right fun hresp => ?_)⟩
  rw [hresp, List.replicate_succ]
  simp [acceptImage]

end Sys2Proof.Machine
end

section
/-! SUPPORT. The pixel classifier: the bit fields of the quantized colour, and the search of the reference palette. -/

namespace Sys2Proof.Machine

/-! ### The quantized colour -/

theorem classifyM4_transparent {px : Pixel} (ha : px.a = 0) : classifyM4 px = none := if_pos ha

theorem classifyM4_opaque {px : Pixel} (ha : px.a ≠ 0) : classifyM4 px = some (quantize px) := if_neg ha

/-- The layout of R112, bit by bit: no field reaches into another. -/
theorem quantize_fields (px : Pixel) :
    (quantize px).extractLsb' 0 2 = px.r.extractLsb' 6 2 ∧ (quantize px).extractLsb' 2 2 = px.g.extractLsb' 6 2 ∧
      (quantize px).extractLsb' 4 2 = px.b.extractLsb' 6 2 := by
  refine ⟨?red, ?green, ?blue⟩
  all_goals
    refine BitVec.eq_of_getLsbD_eq fun i hi => ?_
    interval_cases i <;> simp [quantize]

theorem toNat_extractLsb'_two {n : Nat} (x : BitVec n) (lo : Nat) :
    (x.extractLsb' lo 2).toNat = x.toNat / 2 ^ lo % 4 := by
  rw [BitVec.extractLsb'_toNat, Nat.shiftRight_eq_div_pow]

/-- The three fields cover the six bits, and a byte above its low six bits is below 4. -/
theorem quantize_toNat (px : Pixel) :
    (quantize px).toNat = px.r.toNat / 64 + 4 * (px.g.toNat / 64) + 16 * (px.b.toNat / 64) := by
  obtain ⟨hr, hg, hb⟩ := quantize_fields px
  rw [← BitVec.toNat_inj, toNat_extractLsb'_two, toNat_extractLsb'_two] at hr hg hb
  have hq := (quantize px).isLt
  have := px.r.isLt
  have := px.g.isLt
  have := px.b.isLt
  omega

/-- Settles O21: the fields of the quantized colour, and its value put together from them. -/
theorem quantizeTopTwoBits : Obligations.QuantizeTopTwoBits := fun px =>
  ⟨classifyM4_transparent, fun ha =>
    have ⟨hr, hg, hb⟩ := quantize_fields px
    ⟨quantize px, classifyM4_opaque ha, hr, hg, hb, quantize_toNat px⟩⟩

/-! ### The reference palette -/

theorem rgb_beq_iff (e : Rgb) (px : Pixel) :
    (e.r == px.r && e.g == px.g && e.b == px.b) = true ↔ e = ⟨px.r, px.g, px.b⟩ := by
  cases e
  simp [and_assoc]

/-- The search finds the lowest index that holds the pixel's colour (R113). -/
theorem refIndex_eq_some_iff {ref : Vector Rgb 16} {px : Pixel} (i : Fin 16) :
    refIndex ref px = some i.val ↔
      ref[i] = ⟨px.r, px.g, px.b⟩ ∧ ∀ j : Fin 16, j < i → ref[j] ≠ ⟨px.r, px.g, px.b⟩ := by
  rw [refIndex, List.findIdx?_eq_some_iff_getElem]
  simp only [rgb_beq_iff, Vector.getElem_toList, Vector.length_toList]
  constructor
  · rintro ⟨_, hi, hlow⟩
    exact ⟨hi, fun j hj => hlow j.val hj⟩
  · rintro ⟨hi, hlow⟩
    exact ⟨i.isLt, hi, fun j hj => hlow ⟨j, hj.trans i.isLt⟩ hj⟩

theorem refIndex_eq_none_iff {ref : Vector Rgb 16} {px : Pixel} :
    refIndex ref px = none ↔ ∀ i : Fin 16, ref[i] ≠ ⟨px.r, px.g, px.b⟩ := by
  rw [refIndex, List.findIdx?_eq_none_iff]
  simp only [← Bool.not_eq_true, rgb_beq_iff, Vector.mem_toList_iff, Vector.mem_iff_getElem]
  constructor
  · exact fun h i => h _ ⟨i.val, i.isLt, rfl⟩
  · rintro h _ ⟨i, hi, rfl⟩
    exact h ⟨i, hi⟩

theorem classifyM0_transparent (ref : Vector Rgb 16) {px : Pixel} (ha : px.a = 0) : classifyM0 ref px = (0, false) :=
  if_pos ha

theorem classifyM0_of_refIndex_some {ref : Vector Rgb 16} {px : Pixel} {i : Nat} (ha : px.a ≠ 0)
    (h : refIndex ref px = some i) : classifyM0 ref px = (BitVec.ofNat 4 i, false) := by
  rw [classifyM0, if_neg ha, h]

theorem classifyM0_of_refIndex_none {ref : Vector Rgb 16} {px : Pixel} (ha : px.a ≠ 0) (h : refIndex ref px = none) :
    classifyM0 ref px = (0, true) := by
  rw [classifyM0, if_neg ha, h]

/-- Settles O22: an opaque pixel's answer is that of the search of the reference palette. -/
theorem classifyM0LowestMatch : Obligations.ClassifyM0LowestMatch := fun ref _ =>
  ⟨classifyM0_transparent ref,
    fun ha i hi hlow => classifyM0_of_refIndex_some ha ((refIndex_eq_some_iff i).mpr ⟨hi, hlow⟩),
    fun ha hno => classifyM0_of_refIndex_none ha (refIndex_eq_none_iff.mpr hno)⟩

end Sys2Proof.Machine
end

section
/-! SUPPORT. The palette manager: the contract of its lookup, the 12-bit colours, and what FINALIZE emits of it. -/

namespace Sys2Proof.Machine

/-! ### Lookup -/

/-- The lowest place of a colour is what the lookup answers (R131). -/
theorem addOrLookup_of_lowest {P : List (BitVec 6)} {q : BitVec 6} {i : Nat} (hi : P[i]? = some q)
    (hlow : ∀ j, j < i → P[j]? ≠ some q) : addOrLookup P q = .ok (P, BitVec.ofNat 4 i) := by
  obtain ⟨hlt, heq⟩ := List.getElem?_eq_some_iff.mp hi
  have hfind : P.findIdx? (· == q) = some i := by
    refine List.findIdx?_eq_some_iff_getElem.mpr ⟨hlt, beq_iff_eq.mpr heq, fun j hj hjq => hlow j hj ?_⟩
    rw [List.getElem?_eq_getElem (hj.trans hlt), beq_iff_eq.mp hjq]
  rw [addOrLookup, hfind]

/-- A colour that is not in the palette is appended, or the palette is full (R131). -/
theorem addOrLookup_of_notMem {P : List (BitVec 6)} {q : BitVec 6} (hq : q ∉ P) :
    addOrLookup P q =
      if P.length = 16 then .error .paletteOverflow else .ok (P ++ [q], BitVec.ofNat 4 P.length) := by
  have hfind : P.findIdx? (· == q) = none :=
    List.findIdx?_eq_none_iff.mpr fun c hc => beq_eq_false_iff_ne.mpr fun e => hq (e ▸ hc)
  rw [addOrLookup, hfind]

/-- Settles O23: the search finds the lowest place, and a colour it does not find is new. -/
theorem addOrLookupContract : Obligations.AddOrLookupContract := fun _ _ _ =>
  ⟨fun _ => addOrLookup_of_lowest,
    fun hq hroom => (addOrLookup_of_notMem hq).trans (if_neg hroom.ne),
    fun hq hfull => (addOrLookup_of_notMem hq).trans (if_pos hfull)⟩

/-! ### The 12-bit colours -/

/-- Scaling a 2-bit channel into 4 bits does not overflow (R135). -/
theorem scaleChannel_toNat (c : BitVec 2) : (scaleChannel c).toNat = 5 * c.toNat := by
  rw [scaleChannel, BitVec.toNat_mul, BitVec.toNat_setWidth]
  change c.toNat % 16 * 5 % 16 = _
  omega

/-- The converted colour as a sum of its three scaled channels (R135, R136). -/
theorem conv12_toNat (q : BitVec 6) :
    (conv12 q).toNat = 5 * (q.toNat % 4) + 16 * (5 * (q.toNat / 4 % 4)) + 256 * (5 * (q.toNat / 16)) := by
  simp only [conv12, toNat_append_add, scaleChannel_toNat, toNat_extractLsb'_two]
  omega

/-- Settles O24: the channels of the sum do not overlap, so it gives the colour back. -/
theorem conv12ScalesEachChannel : Obligations.Conv12ScalesEachChannel := by
  refine ⟨conv12_toNat, fun q q' h => BitVec.eq_of_toNat_eq ?_⟩
  have hsum := congrArg BitVec.toNat h
  rw [conv12_toNat, conv12_toNat] at hsum
  omega

/-! ### FINALIZE -/

/-- An entry below PAL_COUNT is a member of the palette, and there are no others (R28). -/
theorem State.pal_getElem?_eq (s : State) (h : s.palCount.toNat ≤ 16) (i : Nat) :
    s.pal[i]? = if i < s.palCount.toNat then some (s.palEntry[i]?.getD 0) else none := by
  rw [State.pal_getElem?]
  split
  case isTrue hi =>
    rw [← Vector.getElem?_toList, List.getElem?_eq_getElem (by rw [Vector.length_toList]; omega)]
    rfl
  case isFalse => rfl

/-- The palette as the entries below PAL_COUNT, in order (R28). -/
theorem State.pal_eq_map_range (s : State) (h : s.palCount.toNat ≤ 16) :
    s.pal = (List.range s.palCount.toNat).map fun i => s.palEntry[i]?.getD 0 := by
  refine List.ext_getElem? fun i => ?_
  rw [State.pal_getElem?_eq s h, List.getElem?_map]
  split
  case isTrue hi => rw [List.getElem?_range hi, Option.map_some]
  case isFalse hi => rw [List.getElem?_eq_none (by rwa [List.length_range, ← Nat.not_lt]), Option.map_none]

/-- PAL_EMIT (R138), read off the palette registers. -/
theorem palRecords_pal (s : State) (h : s.palCount.toNat ≤ 16) :
    palRecords s.pal =
      ((List.range s.palCount.toNat).map fun i => .pal6 (s.palEntry[i]?.getD 0)) ++
        (List.range 16).map fun i => .pal12 (if i < s.palCount.toNat then conv12 (s.palEntry[i]?.getD 0) else 0) := by
  unfold palRecords
  congr 1
  · rw [State.pal_eq_map_range s h, List.map_map]
    rfl
  · refine List.map_congr_left fun i _ => ?_
    rw [State.pal_getElem?_eq s h]
    split <;> rfl

/-- Settles O42: FINALIZE completes from READY, and what it emits in Mode-4 are the records of the palette. -/
theorem finalizeEmitsPalette : Obligations.FinalizeEmitsPalette := by
  intro s hinv hr hm
  have hout : finishOutputs s = s.emitAll (palRecords s.pal) := by rw [finishOutputs, hm]
  rcases execFinalize_cases s with ⟨hne, -⟩ | ⟨-, e⟩
  · exact absurd hr hne
  · rw [List.append_assoc, ← palRecords_pal s hinv.palCount_le]
    change execFinalize s = _
    rw [e, hout]
    rfl

end Sys2Proof.Machine
end

section
/-! SUPPORT. Indexing a tile against a palette: when there is room for its colours (R131, R132), the index that each pixel gets
(R180), and indexing the decoded colours again (R185). -/

namespace Sys2Proof.Machine

/-! ### Room for the tile's colours -/

/-- A lookup has room if the palette and the colour are among at most 16 colours, and it stays among them. -/
theorem addOrLookup_ok_of_subset {P L : List (BitVec 6)} {q : BitVec 6} (hn : P.Nodup) (hP : P ⊆ L) (hq : q ∈ L)
    (hL : L.length ≤ 16) : ∃ P' i, addOrLookup P q = .ok (P', i) ∧ P'.Nodup ∧ P' ⊆ L := by
  by_cases hm : q ∈ P
  · obtain ⟨i, hi⟩ := List.getElem?_of_mem hm
    exact ⟨P, _, addOrLookup_mem hn hi, hn, hP⟩
  · have hn' : (P ++ [q]).Nodup := by simpa [List.nodup_append] using ⟨hn, fun a ha e => hm (e ▸ ha)⟩
    have hP' : P ++ [q] ⊆ L := List.append_subset.mpr ⟨hP, by simpa using hq⟩
    have hlen : P.length + 1 ≤ L.length := by simpa using (List.subperm_of_subset hn' hP').length_le
    exact ⟨P ++ [q], _, (addOrLookup_of_notMem hm).trans (if_neg (by omega)), hn', hP'⟩

/-- A tile has room if the palette and the tile's colours are among at most 16 colours. -/
theorem indexTile_ok_of_subset {L : List (BitVec 6)} (hL : L.length ≤ 16) : ∀ {t : List Pixel} {P : List (BitVec 6)},
    P.Nodup → P ⊆ L → t.filterMap classifyM4 ⊆ L → ∃ r, indexTile P t = .ok r
  | [], P, _, _, _ => ⟨([], P), rfl⟩
  | px :: rest, P, hn, hP, ht => by
    have hpx : ∃ P' i, indexPixel P px = .ok (P', i) ∧ P'.Nodup ∧ P' ⊆ L := by
      unfold indexPixel
      cases hq : classifyM4 px with
      | none => exact ⟨P, 0, rfl, hn, hP⟩
      | some q => exact addOrLookup_ok_of_subset hn hP (ht (List.mem_filterMap.mpr ⟨px, List.mem_cons_self, hq⟩)) hL
    have hrest : rest.filterMap classifyM4 ⊆ L := fun q hq => ht (List.filterMap_subset _ (List.subset_cons_self px rest) hq)
    obtain ⟨P', i, hpx, hn', hP'⟩ := hpx
    obtain ⟨r, hr⟩ := indexTile_ok_of_subset hL hn' hP' hrest
    exact ⟨(i :: r.1, r.2), by rw [indexTile, hpx]; simp only [hr]⟩

/-- After a tile the palette holds the tile's colours. -/
theorem colours_subset_of_indexTile {t : List Pixel} {P P' : List (BitVec 6)} {idx : List (BitVec 4)}
    (hP : P.length ≤ 16) (h : indexTile P t = .ok (idx, P')) : t.filterMap classifyM4 ⊆ P' := by
  obtain ⟨-, -, -, -, -, hidx⟩ := indexTile_ok hP h
  intro q hq
  obtain ⟨px, hpx, hq⟩ := List.mem_filterMap.mp hq
  obtain ⟨k, hk⟩ := List.getElem?_of_mem hpx
  obtain ⟨i, -, -, hi⟩ := hidx k px hk
  exact List.mem_of_getElem? (hi q hq)

/-- A tile overflows the palette exactly if it would need a 17th colour (R131, R132). -/
theorem indexTile_eq_error_iff {t : List Pixel} {P : List (BitVec 6)} (hn : P.Nodup) (hP : P.length ≤ 16) :
    indexTile P t = .error .paletteOverflow ↔ 16 < (P ++ t.filterMap classifyM4).dedup.length := by
  constructor
  · intro h
    by_contra hfits
    obtain ⟨r, hr⟩ := indexTile_ok_of_subset (Nat.le_of_not_lt hfits) hn
      (fun c hc => List.mem_dedup.mpr (List.mem_append_left _ hc)) (fun c hc => List.mem_dedup.mpr (List.mem_append_right _ hc))
    rw [hr] at h
    cases h
  · intro hover
    cases h : indexTile P t with
    | error f => rw [indexTile_error h]
    | ok r =>
      obtain ⟨hpre, hlen, -⟩ := indexTile_ok hP h
      have hsub : (P ++ t.filterMap classifyM4).dedup ⊆ r.2 := fun c hc =>
        (List.mem_append.mp (List.mem_dedup.mp hc)).elim (fun hc => hpre.subset hc)
          (fun hc => colours_subset_of_indexTile hP h hc)
      have := (List.subperm_of_subset (List.nodup_dedup _) hsub).length_le
      omega

/-! ### The index of each pixel -/

/-- A pixel's index under a palette (R180): its colour's place, or 0 where it is transparent. -/
def paletteIndex (P : List (BitVec 6)) (px : Pixel) : BitVec 4 :=
  match classifyM4 px with
  | none => 0
  | some q => BitVec.ofNat 4 (P.idxOf q)

theorem paletteIndex_of_none (P : List (BitVec 6)) {px : Pixel} (h : classifyM4 px = none) : paletteIndex P px = 0 := by
  rw [paletteIndex, h]

theorem paletteIndex_of_some (P : List (BitVec 6)) {px : Pixel} {q : BitVec 6} (h : classifyM4 px = some q) :
    paletteIndex P px = BitVec.ofNat 4 (P.idxOf q) := by
  rw [paletteIndex, h]

/-- In a palette without repetition the place that holds a colour is the colour's place. -/
theorem ofNat_idxOf_of_getElem? {P : List (BitVec 6)} {q : BitVec 6} {i : BitVec 4} (hn : P.Nodup)
    (h : P[i.toNat]? = some q) : BitVec.ofNat 4 (P.idxOf q) = i := by
  obtain ⟨hlt, rfl⟩ := List.getElem?_eq_some_iff.mp h
  rw [hn.idxOf_getElem, BitVec.ofNat_toNat, BitVec.setWidth_eq]

/-- Each pixel's index is its index under the final palette: later pixels of the tile do not move a colour (R133). -/
theorem indexTile_idx {t : List Pixel} {P P' : List (BitVec 6)} {idx : List (BitVec 4)} (hn : P.Nodup) (hP : P.length ≤ 16)
    (h : indexTile P t = .ok (idx, P')) : idx = t.map (paletteIndex P') := by
  obtain ⟨-, -, hn', hlen, -, hidx⟩ := indexTile_ok hP h
  refine List.ext_getElem? fun k => ?_
  rw [List.getElem?_map]
  cases hk : t[k]? with
  | none => exact List.getElem?_eq_none (hlen ▸ List.getElem?_eq_none_iff.mp hk)
  | some px =>
    obtain ⟨i, hi, hnone, hsome⟩ := hidx k px hk
    rw [hi, Option.map_some]
    cases hq : classifyM4 px with
    | none => rw [hnone hq, paletteIndex_of_none P' hq]
    | some q => rw [paletteIndex_of_some P' hq, ofNat_idxOf_of_getElem? (hn' hn) (hsome q hq)]

/-- Pixels whose colours are all in the palette already, at the given places, get those places (R131). -/
theorem indexTile_of_places {P : List (BitVec 6)} (hn : P.Nodup) {t : List Pixel} {idx : List (BitVec 4)}
    (h : List.Forall₂ (fun px i => ∃ q, classifyM4 px = some q ∧ P[i.toNat]? = some q) t idx) :
    indexTile P t = .ok (idx, P) := by
  induction h with
  | nil => rfl
  | @cons px i rest is hpx _ ih =>
    obtain ⟨q, hq, hi⟩ := hpx
    have hpx : indexPixel P px = .ok (P, i) := by
      rw [indexPixel, hq]
      simpa using addOrLookup_mem hn hi
    rw [indexTile, hpx]
    simp only [ih]

/-- Settles O29: the decoded colours stand in the final palette at the places that were their indices. -/
theorem reencodingIsIdempotent : Obligations.ReencodingIsIdempotent := by
  intro P P' t t' idx hP hn _ h hlen hdecoded
  obtain ⟨-, -, hn', hidx, -⟩ := indexTile_ok hP h
  refine indexTile_of_places (hn' hn) (List.forall₂_iff_get.mpr ⟨by omega, fun k hk hk' => ?_⟩)
  obtain ⟨ha, hq⟩ := hdecoded k _ _ (List.getElem?_eq_getElem hk) (List.getElem?_eq_getElem hk')
  exact ⟨_, classifyM4_opaque ha, hq⟩

end Sys2Proof.Machine
end

section
/-! SUPPORT. TILE in Mode-4: the three ways it can end, the rows it emits and what they unpack to, and when it faults. -/

namespace Sys2Proof.Machine

variable {s : State}

/-! ### What the command does -/

/-- The state with a Mode-4 tile of these indices encoded and this palette after it (R183, R210). -/
def State.withMode4Tile (s : State) (idx : List (BitVec 4)) (P : List (BitVec 6)) : State :=
  { (s.emitAll ((tileRows idx).map fun row => .pat32 (rowWord row))).setPal P with tileIndex := s.tileIndex + 1 }

/-- What TILE can do in IMAGE and Mode-4 (R210): a palette fault, an index fault, or a tile encoded. -/
theorem exec_tile_mode4_cases (hr : s.runState = .image) (hm : s.mode = .mode4) :
    (indexTile s.pal (cursorTile s) = .error .paletteOverflow ∧ exec .tile s = .next (faultedWith s 3 .paletteOverflow)) ∨
    ∃ idx P, indexTile s.pal (cursorTile s) = .ok (idx, P) ∧
      (0xFFFFFFFF < s.tileIndex.toNat + 1 ∧ exec .tile s = .next (faultedWith s 7 .tileIndexOverflow) ∨
        s.tileIndex.toNat + 1 ≤ 0xFFFFFFFF ∧
          exec .tile s = .next ((advanceCursor (s.withMode4Tile idx P)).respond .ok 0)) := by
  rcases execTile_cases s with ⟨hne, -⟩ | ⟨-, ⟨f, hf, e⟩ | ⟨s1, n, hs1, hend⟩⟩
  · exact absurd hr hne
  · rcases encodeTile_error hf with ⟨-, rfl, hi⟩ | ⟨hm0, -⟩
    · exact .inl ⟨hi, e⟩
    · exact absurd (hm.symm.trans hm0) nofun
  · rcases encodeTile_ok hs1 with ⟨-, rfl, idx, P, hi, rfl⟩ | ⟨hm0, -⟩
    · exact .inr ⟨idx, P, hi, hend⟩
    · exact absurd (hm.symm.trans hm0) nofun

/-- The palette registers hold PAL_COUNT colours. -/
theorem BlockInvariant.pal_length (h : BlockInvariant s) : s.pal.length = s.palCount.toNat := by
  rw [State.pal_length, Nat.min_eq_left h.palCount_le]

theorem BlockInvariant.pal_length_le (h : BlockInvariant s) : s.pal.length ≤ 16 :=
  h.pal_length.trans_le h.palCount_le

/-! ### The rows -/

/-- Column x of row y is item 8 * y + x (R180). -/
theorem tileRows_getElem? {α : Type} (l : List α) {y : Nat} (hy : y < 8) :
    (tileRows l)[y]? = some ((l.drop (8 * y)).take 8) := by
  rw [tileRows, List.getElem?_map, List.getElem?_range hy, Option.map_some]

theorem tileRows_length {α : Type} (l : List α) : (tileRows l).length = 8 := by
  rw [tileRows, List.length_map, List.length_range]

theorem tileRow_getElem? {α : Type} (l : List α) {x : Nat} (y : Nat) (hx : x < 8) :
    ((l.drop (8 * y)).take 8)[x]? = l[8 * y + x]? := by
  rw [List.getElem?_take_of_lt hx, List.getElem?_drop]

/-- Plane p lies in byte p of the row word (R182). -/
theorem rowWord_getLsbD (row : List (BitVec 4)) {x p : Nat} (hx : x < 8) (hp : p < 4) :
    (rowWord row).getLsbD (8 * p + (7 - x)) = (row[x]?.getD 0).getLsbD p := by
  rw [← planeByte_getLsbD row p hx]
  simp only [rowWord, BitVec.getLsbD_append]
  obtain rfl | rfl | rfl | rfl : p = 0 ∨ p = 1 ∨ p = 2 ∨ p = 3 := by omega
  all_goals
    simp (disch := omega) only [if_pos, if_neg]
    congr 1
    omega

/-- Bit p of an unpacked index is bit 7 - x of byte p of the word (R186). -/
theorem unpackColumn_getLsbD (w : Word) {x p : Nat} (hx : x < 8) (hp : p < 4) :
    (unpackColumn w x).getLsbD p = w.getLsbD (8 * p + (7 - x)) := by
  have hbit : ∀ b : Bool, (BitVec.ofBool b).getLsbD 0 = b := by decide
  simp only [unpackColumn, BitVec.getLsbD_append]
  obtain rfl | rfl | rfl | rfl : p = 0 ∨ p = 1 ∨ p = 2 ∨ p = 3 := by omega
  all_goals
    simp only [Nat.reduceLT, Nat.reduceSub, if_true, if_false, hbit]
    congr 1
    omega

/-- Unpacking a column of a row word gives back its index (R186). -/
theorem unpackColumn_rowWord (row : List (BitVec 4)) {x : Nat} (hx : x < 8) :
    unpackColumn (rowWord row) x = row[x]?.getD 0 :=
  BitVec.eq_of_getLsbD_eq fun _ hp => (unpackColumn_getLsbD _ hx hp).trans (rowWord_getLsbD row hx hp)

/-! ### The encoded tile -/

/-- The state after an encoded tile whose palette extends that of the registers, field by field. -/
theorem BlockInvariant.withMode4Tile_eq (h : BlockInvariant s) (t : List Pixel) {P : List (BitVec 6)} (hP : s.pal <+: P) :
    s.withMode4Tile (t.map (paletteIndex P)) P =
      { s with
        tileIndex := s.tileIndex + 1
        palCount := BitVec.ofNat 5 P.length
        palEntry := Vector.ofFn fun i : Fin 16 => P[i.val]?.getD 0
        sink := s.sink ++
          (List.range 8).map fun y => .pat32 (rowWord (((t.drop (8 * y)).take 8).map (paletteIndex P))) } := by
  have hentry (i : Fin 16) : P[i.val]?.getD s.palEntry[i] = P[i.val]?.getD 0 := by
    by_cases hi : i.val < P.length
    · rw [List.getElem?_eq_getElem hi, Option.getD_some, Option.getD_some]
    · rw [h.palEntry_zero i (by have := hP.length_le; have := h.pal_length; omega)]
  have hrows : ((tileRows (t.map (paletteIndex P))).map fun row => Record.pat32 (rowWord row)) =
      (List.range 8).map fun y => .pat32 (rowWord (((t.drop (8 * y)).take 8).map (paletteIndex P))) := by
    rw [tileRows, List.map_map]
    simp only [Function.comp_def, ← List.map_drop, ← List.map_take]
  rw [State.withMode4Tile, hrows, State.setPal]
  simp only [State.emitAll_palEntry, hentry]
  rfl

/-- Settles O27: the new colours have room, so the tile is encoded, and its palette and indices are determined by them. -/
theorem mode4TileResult : Obligations.Mode4TileResult := by
  rintro s t new hinv hr hm rfl hnew hroom hindex P index
  have hlen := hinv.pal_length_le
  have ⟨_, hmem, _⟩ := hnew
  rcases exec_tile_mode4_cases hr hm with ⟨hi, -⟩ | ⟨idx, P', hi, ⟨hover, -⟩ | ⟨-, e⟩⟩
  · obtain ⟨r, hok⟩ := indexTile_ok_of_subset hroom hinv.pal_nodup (List.subset_append_left _ _)
      (t := cursorTile s) fun q hq => List.mem_append.mpr <| or_iff_not_imp_left.mpr fun hold =>
        (hmem q).mpr (List.mem_filter.mpr ⟨hq, decide_eq_true hold⟩)
    rw [hok] at hi
    cases hi
  · omega
  · obtain ⟨new', rfl, hnew'⟩ := indexTile_order hi
    obtain rfl := hnew'.unique hnew
    rw [e, indexTile_idx hinv.pal_nodup hlen hi, hinv.withMode4Tile_eq _ (List.prefix_append _ _)]
    rfl

/-- What AdvanceCursor and the response leave alone of an encoded tile. -/
theorem advanceCursor_pal_sink_faultCode (s : State) :
    (advanceCursor s).pal = s.pal ∧ (advanceCursor s).sink = s.sink ∧ (advanceCursor s).faultCode = s.faultCode := by
  obtain ⟨_, _, _, e⟩ := advanceCursor_frame s
  rw [e]
  exact ⟨rfl, rfl, rfl⟩

/-- Settles O28: a column unpacks to the index the pixel was given, and that index is its colour's place (R185). -/
theorem mode4TileRoundTrip : Obligations.Mode4TileRoundTrip := by
  rintro s u t hinv hr hm rfl hexec hu
  have hlen := hinv.pal_length_le
  rcases exec_tile_mode4_cases hr hm with ⟨-, e⟩ | ⟨idx, P, hi, ⟨-, e⟩ | ⟨-, e⟩⟩ <;> rw [hexec] at e <;> cases e
  · exact absurd rfl hu
  · exact absurd rfl hu
  · obtain ⟨hpal, hsink, -⟩ := advanceCursor_pal_sink_faultCode (s.withMode4Tile idx P)
    obtain ⟨-, hP, -, -, -, hidx⟩ := indexTile_ok hlen hi
    have hfinal : ((advanceCursor (s.withMode4Tile idx P)).respond .ok 0).pal = P :=
      hpal.trans (State.setPal_pal (s.emitAll _) hP)
    rw [hfinal]
    refine ⟨indexTile_order hi, (tileRows idx).map rowWord, ?_, ?_, fun x y px w hx hy hpx hw => ?_⟩
    · rw [List.length_map, tileRows_length]
    · rw [List.map_map]
      exact hsink
    · obtain ⟨i, hik, hnone, hsome⟩ := hidx _ px hpx
      rw [List.getElem?_map, tileRows_getElem? idx hy, Option.map_some] at hw
      obtain rfl := Option.some.inj hw
      rw [unpackColumn_rowWord _ hx, tileRow_getElem? idx y hx, hik, Option.getD_some]
      exact ⟨fun ha => hsome _ (classifyM4_opaque ha), fun ha => hnone (classifyM4_transparent ha)⟩

/-- Settles O30: of the three ways a Mode-4 TILE ends, the palette fault is the one with a 17th colour. -/
theorem paletteOverflowExactly : Obligations.PaletteOverflowExactly := by
  rintro s t hinv hr hm rfl
  have hiff := indexTile_eq_error_iff (t := cursorTile s) hinv.pal_nodup hinv.pal_length_le
  rcases exec_tile_mode4_cases hr hm with ⟨hi, e⟩ | ⟨idx, P, hi, hend⟩
  · exact ⟨fun _ => e, fun hfits => absurd (hiff.mp hi) hfits.not_gt⟩
  · refine ⟨fun hover => absurd (hi.symm.trans (hiff.mpr hover)) nofun, fun _ u hu => ?_⟩
    rcases hend with ⟨-, e⟩ | ⟨-, e⟩ <;> rw [hu] at e <;> cases e
    · change (7 : BitVec 4) ≠ 3
      decide
    · obtain ⟨-, -, hcode⟩ := advanceCursor_pal_sink_faultCode (s.withMode4Tile idx P)
      obtain ⟨hclear, -⟩ := hinv.fault_clear (by simp [hr])
      rw [State.respond_faultCode, hcode, show (s.withMode4Tile idx P).faultCode = 0 from hclear]
      decide

end Sys2Proof.Machine
end

section
/-! SUPPORT. The colour-table manager: the colours a tile requires, when they fit the open group, and the byte of a pair. -/

namespace Sys2Proof.Machine

/-! ### The colours of a tile -/

theorem tileColours_cons_of_zero {ref : Vector Rgb 16} {px : Pixel} (h : (classifyM0 ref px).1 = 0) (t : List Pixel) :
    tileColours ref (px :: t) = tileColours ref t :=
  List.filter_cons_of_neg (by simpa using h)

theorem tileColours_cons_of_ne_zero {ref : Vector Rgb 16} {px : Pixel} (h : (classifyM0 ref px).1 ≠ 0) (t : List Pixel) :
    tileColours ref (px :: t) = (classifyM0 ref px).1 :: tileColours ref t :=
  List.filter_cons_of_pos (decide_eq_true h)

/-- A pixel of no new colour adds none to the colours still to be recorded. -/
theorem newColours_cons_of_old {ref : Vector Rgb 16} {px : Pixel} {test : List (BitVec 4)}
    (h : ¬ ((classifyM0 ref px).1 ≠ 0 ∧ (classifyM0 ref px).1 ∉ test)) (t : List Pixel) :
    (tileColours ref (px :: t)).filter (· ∉ test) = (tileColours ref t).filter (· ∉ test) := by
  by_cases hz : (classifyM0 ref px).1 = 0
  · rw [tileColours_cons_of_zero hz]
  · rw [tileColours_cons_of_ne_zero hz, List.filter_cons_of_neg]
    simpa using by_contra fun hm => h ⟨hz, hm⟩

/-- The scan of CT_TEST_PAIR records the new colours in order of first appearance (R150). -/
theorem testPairFrom_order (ref : Vector Rgb 16) : ∀ {t : List Pixel} {test test' : List (BitVec 4)},
    testPairFrom ref test t = .ok test' →
    ∃ new, test' = test ++ new ∧ FirstAppearances new ((tileColours ref t).filter (· ∉ test))
  | [], test, test', h => by
    cases h
    exact ⟨[], (List.append_nil _).symm, List.nodup_nil, by simp [tileColours], .nil⟩
  | px :: rest, test, test', h => by
    unfold testPairFrom at h
    dsimp only at h
    split at h
    next hc =>
      split at h
      · cases h
      · obtain ⟨new, rfl, hnew⟩ := testPairFrom_order ref h
        refine ⟨(classifyM0 ref px).1 :: new, by rw [List.append_assoc, List.singleton_append], ?_⟩
        rw [tileColours_cons_of_ne_zero hc.1, List.filter_cons_of_pos (by simpa using hc.2)]
        apply FirstAppearances.cons
        rw [List.filter_filter]
        convert hnew using 3
        simp [Bool.and_comm]
    next hc =>
      obtain ⟨new, rfl, hnew⟩ := testPairFrom_order ref h
      exact ⟨new, rfl, (newColours_cons_of_old hc rest).symm ▸ hnew⟩

/-- Where the scan of CT_TEST_PAIR faults there are three distinct colours (R150, R151). -/
theorem three_colours_of_testPairFrom_error (ref : Vector Rgb 16) : ∀ {t : List Pixel} {test : List (BitVec 4)}
    {f : FatalFault}, test.Nodup → testPairFrom ref test t = .error f →
    ∃ L : List (BitVec 4), L.Nodup ∧ L.length = 3 ∧ L ⊆ test ++ tileColours ref t
  | [], _, _, _, h => by cases h
  | px :: rest, test, f, hn, h => by
    unfold testPairFrom at h
    dsimp only at h
    split at h
    next hc =>
      have hn' : (test ++ [(classifyM0 ref px).1]).Nodup := by
        simpa [List.nodup_append] using ⟨hn, fun c hm e => hc.2 (e ▸ hm)⟩
      rw [tileColours_cons_of_ne_zero hc.1, List.append_cons]
      split at h
      next hl => exact ⟨_, hn', by rw [List.length_append, hl]; rfl, List.subset_append_left _ _⟩
      next => exact three_colours_of_testPairFrom_error ref hn' h
    next =>
      obtain ⟨L, hL, hl, hsub⟩ := three_colours_of_testPairFrom_error ref hn h
      refine ⟨L, hL, hl, List.Subset.trans hsub (List.append_subset.mpr ⟨List.subset_append_left _ _, ?_⟩)⟩
      exact List.subset_append_of_subset_right _ ((List.sublist_cons_self px rest).map _ |>.filter _).subset

/-- CT_TEST_PAIR answers the tile's colours, at most two, in order of first appearance (R150). -/
theorem testPair_ok {ref : Vector Rgb 16} {t : List Pixel} {test : List (BitVec 4)} (h : testPair ref t = .ok test) :
    test.length ≤ 2 ∧ FirstAppearances test (tileColours ref t) := by
  obtain ⟨_, rfl, hnew⟩ := testPairFrom_order ref h
  exact ⟨(isPair_testPair h).length_le, by simpa using hnew⟩

/-- CT_TEST_PAIR faults exactly where the tile has a third colour (R151). -/
theorem testPair_eq_error_iff {ref : Vector Rgb 16} {t : List Pixel} {f : FatalFault} :
    testPair ref t = .error f ↔ f = .tooManyColoursInTile ∧ 2 < (tileColours ref t).dedup.length := by
  constructor
  · intro h
    obtain ⟨L, hn, hl, hsub⟩ := three_colours_of_testPairFrom_error ref List.nodup_nil h
    have hle := (List.subperm_of_subset hn fun c hc => List.mem_dedup.mpr (hsub hc)).length_le
    exact ⟨testPairFrom_error ref h, by rw [List.nil_append] at hle; omega⟩
  · rintro ⟨rfl, hthree⟩
    cases h : testPair ref t with
    | error f => rw [testPairFrom_error ref h]
    | ok test =>
      obtain ⟨hle, -, hmem, -⟩ := testPair_ok h
      have := (List.subperm_of_subset (List.nodup_dedup _) fun c hc => (hmem c).mpr (List.mem_dedup.mp hc)).length_le
      omega

/-- Settles O31: the colours the scan records, and the three that make it fault. -/
theorem testPairContract : Obligations.TestPairContract :=
  fun _ _ => ⟨fun _ => testPair_ok, fun _ => testPair_eq_error_iff⟩

/-! ### The open group -/

theorem compatible_iff {pair test : List (BitVec 4)} : compatible pair test = true ↔ (pair ++ test).dedup.length ≤ 2 :=
  decide_eq_true_iff

/-- Colours that are all among two are compatible (R152). -/
theorem compatible_of_subset {pair test L : List (BitVec 4)} (hL : L.length ≤ 2) (hp : pair ⊆ L) (ht : test ⊆ L) :
    compatible pair test = true :=
  have hsub : (pair ++ test).dedup ⊆ L := fun _ hc => List.append_subset.mpr ⟨hp, ht⟩ (List.mem_dedup.mp hc)
  compatible_iff.mpr ((List.subperm_of_subset (List.nodup_dedup _) hsub).length_le.trans hL)

/-- A third distinct colour makes a pair and a test incompatible (R152). -/
theorem not_compatible_of_three {pair test : List (BitVec 4)} {a b c : BitVec 4} (hab : a ≠ b) (hac : a ≠ c) (hbc : b ≠ c)
    (h : [a, b, c] ⊆ pair ++ test) : compatible pair test = false := by
  have hle := (List.subperm_of_subset (l₁ := [a, b, c]) (by simp [*]) fun d hd => List.mem_dedup.mpr (h hd)).length_le
  refine Bool.eq_false_iff.mpr fun hc => ?_
  have := hle.trans (compatible_iff.mp hc)
  simp at this

/-- Settles O32: each row names the two colours all of them are among, or three distinct ones. -/
theorem compatibleCases : Obligations.CompatibleCases := by
  refine ⟨fun test h => ?_, fun a => ?_, fun a b => ?_, fun a b _ => ⟨?_, ?_⟩, fun a b c hbc hab hac => ?_,
    fun a b test _ h => ?_, fun a b c test hab hc hca hcb => ?_⟩
  · exact compatible_of_subset h (List.nil_subset _) (List.Subset.refl _)
  · exact compatible_of_subset (L := [a]) (by simp) (by simp) (by simp)
  · exact compatible_of_subset (L := [a, b]) (by simp) (by simp) (by simp)
  · exact compatible_of_subset (L := [a, b]) (by simp) (by simp) (by simp)
  · exact compatible_of_subset (L := [a, b]) (by simp) (by simp) (by simp)
  · exact not_compatible_of_three hab hac hbc (by simp)
  · exact compatible_of_subset (L := [a, b]) (by simp) (by simp) fun c hc => by simpa using h c hc
  · exact not_compatible_of_three hab hca.symm hcb.symm (by simp [hc])

/-- CT_MERGE appends the colours that the pair does not hold (R155). -/
theorem merge_eq_append_filter : ∀ {test pair : List (BitVec 4)}, test.Nodup →
    merge pair test = pair ++ test.filter (· ∉ pair)
  | [], pair, _ => (List.append_nil pair).symm
  | c :: test, pair, h => by
    obtain ⟨hc, hn⟩ := List.nodup_cons.mp h
    rw [show merge pair (c :: test) = merge (if c ∈ pair then pair else pair ++ [c]) test from rfl]
    by_cases hm : c ∈ pair
    · rw [if_pos hm, merge_eq_append_filter hn, List.filter_cons_of_neg (by simpa using hm)]
    · have hrest : test.filter (· ∉ pair ++ [c]) = test.filter (· ∉ pair) :=
        List.filter_congr fun d hd => by simp [show d ≠ c from fun e => hc (e ▸ hd)]
      rw [if_neg hm, merge_eq_append_filter hn, hrest, List.filter_cons_of_pos (by simpa using hm), ← List.append_cons]

/-- Settles O33: the merged pair as a list, and as long as the union that CT_COMPATIBLE counts. -/
theorem mergeKeepsBitPositions : Obligations.MergeKeepsBitPositions := fun _ _ hn =>
  ⟨merge_eq_append_filter hn, fun hp hc => (merge_length hp).trans_le (compatible_iff.mp hc)⟩

/-! ### The colour-table byte -/

theorem nibbles_append : ∀ hi lo : BitVec 4, (hi ++ lo).extractLsb' 0 4 = lo ∧ (hi ++ lo).extractLsb' 4 4 = hi := by
  decide

/-- Settles O34: the two nibbles of the byte, for a pair of no, one and two colours. -/
theorem ctByteNibbles : Obligations.CtByteNibbles
  | [], _ => nibbles_append 0 0
  | [a], _ => nibbles_append 0 a
  | [a, b], _ => nibbles_append b a

/-- Settles O43: FINALIZE completes from READY, and what it emits in Mode-0 is the byte of an open group. -/
theorem finalizeFlushesOpenGroup : Obligations.FinalizeFlushesOpenGroup := by
  intro s hr hm
  have hout : finishOutputs s = flush s := by rw [finishOutputs, hm]
  rcases execFinalize_cases s with ⟨hne, -⟩ | ⟨-, e⟩
  · exact absurd hr hne
  · change execFinalize s = _
    rw [e, hout, flush_eq]
    rfl

end Sys2Proof.Machine
end

section
/-! SUPPORT. TILE in Mode-0: the three ways it can end, the state after an encoded tile field by field, and when it faults. -/

namespace Sys2Proof.Machine

variable {s : State}

/-! ### What the command does -/

/-- The warning leaves the open group alone. -/
theorem State.warnIf_pair_groupPos (s : State) (seen : Bool) :
    (s.warnIf seen).pair = s.pair ∧ (s.warnIf seen).groupPos = s.groupPos := by
  rw [State.warnIf_eq]
  exact ⟨rfl, rfl⟩

/-- A rollover writes the pad tiles that the tile needs (R152, R153). -/
theorem rolloverIfNeeded_pads (s : State) (test : List (BitVec 4)) : (rolloverIfNeeded s test).2 = padsNeeded s test := by
  unfold rolloverIfNeeded padsNeeded
  by_cases hc : compatible s.pair test = true
  · rw [if_pos hc, if_pos (compatible_iff.mp hc)]
  · rw [if_neg hc, if_neg fun h => hc (compatible_iff.mpr h), rollover_eq]

/-- The state with a Mode-0 tile of these colours encoded (R190). -/
def State.withMode0Tile (s : State) (t : List Pixel) (test : List (BitVec 4)) : State :=
  placeTile t test (rolloverIfNeeded (s.warnIf (unmappableSeen s.refPalette t)) test).1

/-- What TILE can do in IMAGE and Mode-0 (R210): a colour fault, an index fault, or a tile encoded. -/
theorem exec_tile_mode0_cases (hr : s.runState = .image) (hm : s.mode = .mode0) :
    (testPair s.refPalette (cursorTile s) = .error .tooManyColoursInTile ∧
      exec .tile s = .next (faultedWith s 2 .tooManyColoursInTile)) ∨
    ∃ test, testPair s.refPalette (cursorTile s) = .ok test ∧
      (0xFFFFFFFF < s.tileIndex.toNat + padsNeeded s test + 1 ∧ exec .tile s = .next (faultedWith s 7 .tileIndexOverflow) ∨
        s.tileIndex.toNat + padsNeeded s test + 1 ≤ 0xFFFFFFFF ∧
          exec .tile s = .next ((advanceCursor (s.withMode0Tile (cursorTile s) test)).respond .ok 0)) := by
  rcases execTile_cases s with ⟨hne, -⟩ | ⟨-, ⟨f, hf, e⟩ | ⟨s1, n, hs1, hend⟩⟩
  · exact absurd hr hne
  · rcases encodeTile_error hf with ⟨hm4, -⟩ | ⟨-, rfl, ht⟩
    · exact absurd (hm.symm.trans hm4) nofun
    · exact .inl ⟨ht, e⟩
  · rcases encodeTile_ok hs1 with ⟨hm4, -⟩ | ⟨-, test, ht, rfl, rfl⟩
    · exact absurd (hm.symm.trans hm4) nofun
    · obtain ⟨hpair, hgp⟩ := s.warnIf_pair_groupPos (unmappableSeen s.refPalette (cursorTile s))
      have hpads : (rolloverIfNeeded (s.warnIf (unmappableSeen s.refPalette (cursorTile s))) test).2 = padsNeeded s test := by
        rw [rolloverIfNeeded_pads, padsNeeded, hpair, hgp, padsNeeded]
      rw [hpads] at hend
      exact .inr ⟨test, ht, hend⟩

/-- Settles O38: of the three ways a Mode-0 TILE ends, a third colour leaves only the colour fault. -/
theorem thirdColourFaults : Obligations.ThirdColourFaults := by
  rintro s t hr hm rfl hthree
  have herr := testPair_eq_error_iff.mpr ⟨rfl, hthree⟩
  rcases exec_tile_mode0_cases hr hm with ⟨-, e⟩ | ⟨test, ht, -⟩
  · exact e
  · exact absurd (herr.symm.trans ht) nofun

/-! ### The encoded tile -/

theorem unmappableSeen_eq (ref : Vector Rgb 16) (t : List Pixel) :
    unmappableSeen ref t = decide (∃ px ∈ t, (classifyM0 ref px).2 = true) := by
  rw [unmappableSeen, Bool.eq_iff_iff, List.any_eq_true, decide_eq_true_iff]

/-- Placing a tile that fits the open group (R190, steps 4 and 5), with the merged pair and the group position as lists and
numbers. -/
theorem placeTile_of_compatible {test : List (BitVec 4)} (hpair : IsPair s.pair) (ht : IsPair test)
    (hc : compatible s.pair test = true) (t : List Pixel) :
    placeTile t test s =
      let pair := s.pair ++ test.filter (· ∉ s.pair)
      let position := s.groupPos.toNat + 1
      { s with
        tileIndex := s.tileIndex + 1
        pairCount := if position = 8 then 0 else BitVec.ofNat 2 pair.length
        pairEntry0 := if position = 8 then 0 else pair[0]?.getD 0
        pairEntry1 := if position = 8 then 0 else pair[1]?.getD 0
        groupPos := if position = 8 then 0 else BitVec.ofNat 3 position
        sink := s.sink ++ ((List.range 8).map fun y => .pat8 (rowByte s.refPalette pair ((t.drop (8 * y)).take 8))) ++
          (if position = 8 then [.ctb (ctByte pair)] else []) } := by
  have hnext : BitVec.ofNat 3 (s.groupPos.toNat + 1) = s.groupPos + 1 := by
    bv_omega
  have hrows (pair : List (BitVec 4)) : rowRecords s.refPalette pair t =
      (List.range 8).map fun y => .pat8 (rowByte s.refPalette pair ((t.drop (8 * y)).take 8)) := by
    rw [rowRecords, tileRows, List.map_map]
    rfl
  rw [placeTile_eq, State.setPair_pair s (hpair.merge ht hc).length_le]
  simp only [merge_eq_append_filter ht.nodup, hnext, hrows, List.append_assoc]

/-- After a rollover the group is fresh (R153). -/
theorem rollover_pair_groupPos (s : State) : (rollover s).1.pair = [] ∧ (rollover s).1.groupPos = 0 := by
  rw [rollover_eq]
  exact ⟨rfl, rfl⟩

/-- A tile that can join the open group is placed in it (R152, R190). -/
theorem BlockInvariant.withMode0Tile_of_joins (h : BlockInvariant s) {test : List (BitVec 4)} (ht : IsPair test)
    (hj : (s.pair ++ test).dedup.length ≤ 2) (t : List Pixel) :
    s.withMode0Tile t test =
      let pair := s.pair ++ test.filter (· ∉ s.pair)
      let position := s.groupPos.toNat + 1
      let warning := unmappableSeen s.refPalette t
      { s with
        tileIndex := s.tileIndex + 1
        warnUnmappable := s.warnUnmappable || warning
        pairCount := if position = 8 then 0 else BitVec.ofNat 2 pair.length
        pairEntry0 := if position = 8 then 0 else pair[0]?.getD 0
        pairEntry1 := if position = 8 then 0 else pair[1]?.getD 0
        groupPos := if position = 8 then 0 else BitVec.ofNat 3 position
        sink := s.sink ++ (if warning && !s.warnUnmappable then [.diag 4] else []) ++
          ((List.range 8).map fun y => .pat8 (rowByte s.refPalette pair ((t.drop (8 * y)).take 8))) ++
          (if position = 8 then [.ctb (ctByte pair)] else []) } := by
  obtain ⟨hpair, hgp⟩ := s.warnIf_pair_groupPos (unmappableSeen s.refPalette t)
  have hc : compatible (s.warnIf (unmappableSeen s.refPalette t)).pair test = true := hpair ▸ compatible_iff.mpr hj
  rw [State.withMode0Tile, Machine.rolloverIfNeeded, if_pos hc, placeTile_of_compatible (hpair ▸ h.isPair) ht hc, hpair, hgp,
    State.warnIf_eq]

/-- A tile that cannot join the open group is placed in a fresh one, after the pad tiles and the byte of the group it closes
(R152, R153, R190). -/
theorem State.withMode0Tile_of_rollover {test : List (BitVec 4)} (ht : IsPair test) (hj : ¬ (s.pair ++ test).dedup.length ≤ 2)
    (t : List Pixel) :
    s.withMode0Tile t test =
      let warning := unmappableSeen s.refPalette t
      let npads := 8 - s.groupPos.toNat
      { s with
        tileIndex := s.tileIndex + BitVec.ofNat 32 npads + 1
        warnUnmappable := s.warnUnmappable || warning
        pairCount := BitVec.ofNat 2 test.length
        pairEntry0 := test[0]?.getD 0
        pairEntry1 := test[1]?.getD 0
        groupPos := 1
        sink := s.sink ++ (if warning && !s.warnUnmappable then [.diag 4] else []) ++
          (List.replicate (8 * npads) (.pat8 0) ++ [.ctb (ctByte s.pair)]) ++
          ((List.range 8).map fun y => .pat8 (rowByte s.refPalette test ((t.drop (8 * y)).take 8))) } := by
  obtain ⟨hpair, hgp⟩ := s.warnIf_pair_groupPos (unmappableSeen s.refPalette t)
  obtain ⟨hpair', hgp'⟩ := rollover_pair_groupPos (s.warnIf (unmappableSeen s.refPalette t))
  have hc : ¬ compatible (s.warnIf (unmappableSeen s.refPalette t)).pair test = true :=
    hpair ▸ fun h => hj (compatible_iff.mp h)
  have hc' : compatible (rollover (s.warnIf (unmappableSeen s.refPalette t))).1.pair test = true :=
    hpair' ▸ compatible_of_subset ht.length_le (List.nil_subset _) (List.Subset.refl _)
  rw [State.withMode0Tile, rolloverIfNeeded, if_neg hc, placeTile_of_compatible (hpair' ▸ isPair_nil) ht hc', hpair', hgp',
    rollover_eq, hpair, hgp, State.warnIf_eq]
  simp

/-- Settles O36: the tile is placed in the open group where it fits it, and in a fresh one after a rollover. -/
theorem mode0TileResult : Obligations.Mode0TileResult := by
  rintro s t test hinv hr hm rfl ht hindex joins before pair position warning
  rcases exec_tile_mode0_cases hr hm with ⟨herr, -⟩ | ⟨test', ht', hend⟩
  · exact absurd (herr.symm.trans ht) nofun
  obtain rfl := Except.ok.inj (ht'.symm.trans ht)
  obtain ⟨hover, -⟩ | ⟨-, e⟩ := hend
  · omega
  rw [e]
  refine congrArg (fun u => Host.Outcome.next ((advanceCursor u).respond .ok 0)) ?_
  by_cases hj : (s.pair ++ test').dedup.length ≤ 2
  · rw [hinv.withMode0Tile_of_joins (isPair_testPair ht) hj, unmappableSeen_eq]
    simp [pair, before, position, joins, warning, hj, padsNeeded]
  · rw [State.withMode0Tile_of_rollover (isPair_testPair ht) hj, unmappableSeen_eq]
    simp [pair, before, position, joins, warning, hj, padsNeeded, BitVec.add_assoc, BitVec.ofNat_add]

end Sys2Proof.Machine
end

section
/-! SUPPORT. The ledger of a run's records (R159, R193, R222): how many records of each kind a list adds, and that each operation
of the block that emits any keeps the ledger. -/

namespace Sys2Proof.Machine

variable {base : Nat} {s t : State}

/-! ### Counting records by their tag -/

@[simp] theorem countTag_nil (n : Nat) : countTag n [] = 0 := rfl

@[simp] theorem countTag_append (n : Nat) (rs rs' : List Record) : countTag n (rs ++ rs') = countTag n rs + countTag n rs' :=
  List.countP_append

@[simp] theorem countTag_singleton (n : Nat) (r : Record) : countTag n [r] = if recordTag r = n then 1 else 0 := by
  simp [countTag]

/-- Records of one tag count only under it. -/
theorem countTag_of_forall {k : Nat} {rs : List Record} (h : ∀ r ∈ rs, recordTag r = k) (n : Nat) :
    countTag n rs = if k = n then rs.length else 0 := by
  split
  next hk => exact List.countP_eq_length.mpr fun r hr => by simp [h r hr, hk]
  next hk => exact List.countP_eq_zero.mpr fun r hr => by simp [h r hr, hk]

@[simp] theorem countTag_replicate (n k : Nat) (r : Record) :
    countTag n (List.replicate k r) = if recordTag r = n then k else 0 := by
  rw [countTag_of_forall (fun r' hr => by rw [List.eq_of_mem_replicate hr]), List.length_replicate]

@[simp] theorem countTag_rowRecords (n : Nat) (ref : Vector Rgb 16) (pair : List (BitVec 4)) (p : List Pixel) :
    countTag n (rowRecords ref pair p) = if 2 = n then 8 else 0 := by
  rw [rowRecords, countTag_of_forall (k := 2) (by simp [recordTag]), List.length_map, tileRows_length]

@[simp] theorem countTag_rowWords (n : Nat) (idx : List (BitVec 4)) :
    countTag n ((tileRows idx).map fun row => .pat32 (rowWord row)) = if 1 = n then 8 else 0 := by
  rw [countTag_of_forall (k := 1) (by simp [recordTag]), List.length_map, tileRows_length]

/-- The palette's records count under none of the tags of the ledger. -/
theorem countTag_palRecords {n : Nat} (h5 : 5 ≠ n) (h6 : 6 ≠ n) (P : List (BitVec 6)) : countTag n (palRecords P) = 0 := by
  rw [palRecords, countTag_append, countTag_of_forall (k := 5) (by simp [recordTag]),
    countTag_of_forall (k := 6) (by simp [recordTag]), if_neg h5, if_neg h6]

/-- What a run's records count to after more of them. -/
theorem RunLedger.countTag_append_drop (h : RunLedger base s) (n : Nat) (rs : List Record) :
    countTag n ((s.sink ++ rs).drop base) = countTag n (s.sink.drop base) + countTag n rs := by
  rw [List.drop_append_of_le_length h.base_le, countTag_append]

/-! ### Operations -/

/-- The ledger looks at the sink, MODE, the index, the image count and the flag, and of RUN_STATE only at FINALIZED. -/
theorem RunLedger.congr (h : RunLedger base s) (hsink : t.sink = s.sink) (hm : t.mode = s.mode)
    (hti : t.tileIndex = s.tileIndex) (hic : t.imageCount = s.imageCount) (hw : t.warnUnmappable = s.warnUnmappable)
    (hr : t.runState = .finalized ↔ s.runState = .finalized) : RunLedger base t where
  base_le := hsink ▸ h.base_le
  pat32 := by rw [hsink, hm, hti, h.pat32]
  pat8 := by rw [hsink, hm, hti, h.pat8]
  ctb := by rw [hsink, hm, hti, h.ctb]; simp only [hr]
  sym := by rw [hsink, hic, h.sym]
  diag := by rw [hsink, hw, h.diag]

theorem RunLedger.respond (h : RunLedger base s) (st : Status) (v : Word) : RunLedger base (s.respond st v) :=
  h.congr rfl rfl rfl rfl rfl Iff.rfl

/-- A fault takes back whatever the command did (R250, R251). -/
theorem RunLedger.takeFault (h : RunLedger base s) (hr : s.runState = .image) (f : FatalFault) : RunLedger base (s.takeFault f) :=
  h.congr rfl rfl rfl rfl rfl (by simp [hr])

/-- A run starts with no record of its own (R200). -/
theorem runLedger_clearBlock (s : State) (m : Mode) : RunLedger s.sink.length (s.clearBlock .ready m) := by
  constructor <;> simp

/-- An accepted image is one symbol (R205). -/
theorem RunLedger.acceptImage (h : RunLedger base s) (hr : s.runState = .ready) (w ht : Word) (name : List Byte) :
    RunLedger base (acceptImage w ht name s) := by
  have hcount (n : Nat) : countTag n ((Machine.acceptImage w ht name s).sink.drop base) = _ :=
    h.countTag_append_drop n [.sym (sanitize name) s.tileIndex]
  have hrun : (Machine.acceptImage w ht name s).runState ≠ .finalized := by
    simp only [Machine.acceptImage]
    split <;> nofun
  exact {
    base_le := h.base_le.trans (List.prefix_append _ _).length_le
    pat32 := (hcount 1).trans h.pat32
    pat8 := (hcount 2).trans h.pat8
    ctb := by rw [hcount, h.ctb]; simp [hrun, hr, recordTag]; rfl
    sym := by
      rw [hcount]
      change (_ + 1) % 2 ^ 32 = (s.imageCount + 1).toNat
      rw [BitVec.toNat_add, ← h.sym, Nat.mod_add_mod]
      rfl
    diag := (hcount 7).trans h.diag }

/-! ### Encoded tiles -/

/-- A Mode-4 tile is eight rows (R180, R183). -/
theorem RunLedger.withMode4Tile (h : RunLedger base s) (hm : s.mode = .mode4) (hti : s.tileIndex.toNat + 1 ≤ 0xFFFFFFFF)
    (idx : List (BitVec 4)) (P : List (BitVec 6)) : RunLedger base (s.withMode4Tile idx P) := by
  have hcount (n : Nat) : countTag n ((s.withMode4Tile idx P).sink.drop base) = _ :=
    h.countTag_append_drop n ((tileRows idx).map fun row => .pat32 (rowWord row))
  have hindex : (s.withMode4Tile idx P).tileIndex.toNat = s.tileIndex.toNat + 1 := by
    simp only [State.withMode4Tile]
    bv_omega
  have hmode : (s.withMode4Tile idx P).mode = .mode4 := hm
  exact {
    base_le := h.base_le.trans (List.prefix_append _ _).length_le
    pat32 := by rw [hcount, h.pat32, hindex, hmode, hm]; simp; omega
    pat8 := by rw [hcount, h.pat8, hmode, hm]; simp
    ctb := by rw [hcount, h.ctb, hmode, hm]; simp
    sym := (congrArg (· % 2 ^ 32) (hcount 4)).trans h.sym
    diag := (hcount 7).trans h.diag }

/-- The warning is one diagnostic, the first time (R193). -/
theorem RunLedger.warnIf (h : RunLedger base s) (seen : Bool) : RunLedger base (s.warnIf seen) := by
  have hcount (n : Nat) := h.countTag_append_drop n [.diag unmappableCode]
  unfold State.warnIf
  split
  next hfirst =>
    have hclear : s.warnUnmappable = false := by simpa using (Bool.and_eq_true_iff.mp hfirst).2
    exact {
      base_le := h.base_le.trans (List.prefix_append _ _).length_le
      pat32 := (hcount 1).trans h.pat32
      pat8 := (hcount 2).trans h.pat8
      ctb := (hcount 3).trans h.ctb
      sym := (congrArg (· % 2 ^ 32) (hcount 4)).trans h.sym
      diag := (hcount 7).trans (by rw [h.diag, hclear]; rfl) }
  next => exact h

/-- The warning leaves the run and its index alone. -/
theorem State.warnIf_mode_runState_tileIndex (s : State) (seen : Bool) : (s.warnIf seen).mode = s.mode ∧
    (s.warnIf seen).runState = s.runState ∧ (s.warnIf seen).tileIndex = s.tileIndex := by
  rw [State.warnIf_eq]
  exact ⟨rfl, rfl, rfl⟩

/-- Further records of a Mode-0 run that is not finalized, entered in its ledger: rows and colour-table bytes for the indices
taken, and no other kind. -/
theorem RunLedger.enterGroup (h : RunLedger base s) (hm : s.mode = .mode0) (hr : s.runState ≠ .finalized) {rs : List Record}
    {ti : Word} (pc : BitVec 2) (e0 e1 : BitVec 4) (gp : BitVec 3)
    (hrows : 8 * s.tileIndex.toNat + countTag 2 rs = 8 * ti.toNat)
    (hbytes : s.tileIndex.toNat / 8 + countTag 3 rs = ti.toNat / 8)
    (hother : ∀ n, n ≠ 2 → n ≠ 3 → countTag n rs = 0) :
    RunLedger base { s with
      tileIndex := ti, pairCount := pc, pairEntry0 := e0, pairEntry1 := e1, groupPos := gp, sink := s.sink ++ rs } where
  base_le := h.base_le.trans (List.prefix_append _ _).length_le
  pat32 := by rw [h.countTag_append_drop, h.pat32, hm, hother 1 (by simp) (by simp)]; rfl
  pat8 := by rw [h.countTag_append_drop, h.pat8, hm]; exact hrows
  ctb := by rw [h.countTag_append_drop, h.ctb, hm]; simpa [hr] using hbytes
  sym := by rw [h.countTag_append_drop, hother 4 (by simp) (by simp)]; exact h.sym
  diag := by rw [h.countTag_append_drop, h.diag, hother 7 (by simp) (by simp)]; rfl

/-- A rollover is eight rows for each pad index and the byte of the group it closes (R153). -/
theorem RunLedger.rollover (h : RunLedger base s) (hinv : BlockInvariant s) (hm : s.mode = .mode0)
    (hr : s.runState ≠ .finalized) (hti : s.tileIndex.toNat + (8 - s.groupPos.toNat) ≤ 0xFFFFFFFF) :
    RunLedger base (rollover s).1 := by
  have hgp := hinv.groupPos_index hm
  rw [rollover_eq]
  have hindex : (s.tileIndex + BitVec.ofNat 32 (8 - s.groupPos.toNat)).toNat = s.tileIndex.toNat + (8 - s.groupPos.toNat) := by
    bv_omega
  refine h.enterGroup hm hr _ _ _ _ ?_ ?_ fun n h2 h3 => ?_
  · simp only [hindex]
    simp [recordTag]
    omega
  · simp only [hindex]
    simp [recordTag]
    omega
  · simp [recordTag, h2.symm, h3.symm]

/-- A placed tile is eight rows, and the byte of the group where it is the eighth of it (R157, R190). -/
theorem RunLedger.placeTile (h : RunLedger base s) (hinv : BlockInvariant s) (hm : s.mode = .mode0)
    (hr : s.runState ≠ .finalized) (hti : s.tileIndex.toNat + 1 ≤ 0xFFFFFFFF) (p : List Pixel) (test : List (BitVec 4)) :
    RunLedger base (placeTile p test s) := by
  have hgp := hinv.groupPos_index hm
  have hindex : (s.tileIndex + 1).toNat = s.tileIndex.toNat + 1 := by
    bv_omega
  rw [placeTile_eq]
  refine h.enterGroup hm hr _ _ _ _ ?_ ?_ fun n h2 h3 => ?_
  · simp only [hindex]
    split <;> simp [recordTag] <;> omega
  · simp only [hindex]
    split <;> simp [recordTag] <;> omega
  · split <;> simp [recordTag, h2.symm, h3.symm]

theorem RunLedger.rolloverIfNeeded (h : RunLedger base s) (hinv : BlockInvariant s) (hm : s.mode = .mode0)
    (hr : s.runState ≠ .finalized) {test : List (BitVec 4)}
    (hti : s.tileIndex.toNat + (rolloverIfNeeded s test).2 ≤ 0xFFFFFFFF) : RunLedger base (rolloverIfNeeded s test).1 := by
  unfold Machine.rolloverIfNeeded at hti ⊢
  split
  next => exact h
  next hc =>
    rw [if_neg hc, rollover_eq] at hti
    exact h.rollover hinv hm hr hti

/-- A tile placed after the rollover it needs (R190) keeps the ledger. -/
theorem RunLedger.rollAndPlace (h : RunLedger base s) (hinv : BlockInvariant s) (hm : s.mode = .mode0) (hr : s.runState = .image)
    (p : List Pixel) {test : List (BitVec 4)} (hti : s.tileIndex.toNat + (Machine.rolloverIfNeeded s test).2 + 1 ≤ 0xFFFFFFFF) :
    RunLedger base (Machine.placeTile p test (Machine.rolloverIfNeeded s test).1) := by
  have hrolled := h.rolloverIfNeeded hinv hm (by simp [hr]) (Nat.le_of_succ_le hti)
  have hindex := rolloverIfNeeded_tileIndex s test
  obtain ⟨_, _, _, _, _, e⟩ := rolloverIfNeeded_frame s test
  have hrun : (Machine.rolloverIfNeeded s test).1.runState = .image := by rw [e, ← hr]
  refine hrolled.placeTile (hinv.rolloverIfNeeded hm (by simp [hr]) test) (e ▸ hm) (by simp [hrun]) ?_ p test
  rw [hindex]
  bv_omega

/-- A successful encoder whose index fits keeps the ledger (R210, R212). -/
theorem RunLedger.encodeTile (h : RunLedger base s) (hinv : BlockInvariant s) (hr : s.runState = .image) {p : List Pixel}
    {s1 : State} {n : Nat} (he : encodeTile p s = .ok (s1, n)) (hti : s.tileIndex.toNat + n + 1 ≤ 0xFFFFFFFF) :
    RunLedger base s1 := by
  rcases encodeTile_ok he with ⟨hm, rfl, idx, P, -, rfl⟩ | ⟨hm, test, -, rfl, rfl⟩
  · exact h.withMode4Tile hm hti idx P
  · obtain ⟨hwm, hwr, hwti⟩ := s.warnIf_mode_runState_tileIndex (unmappableSeen s.refPalette p)
    exact (h.warnIf _).rollAndPlace (hinv.warnIf hm _) (hwm.trans hm) (hwr.trans hr) p (hwti.symm ▸ hti)

/-! ### Commands -/

/-- AdvanceCursor (R211) may complete the image, and does not finish the run. -/
theorem RunLedger.advanceCursor (h : RunLedger base s) (hr : s.runState = .image) : RunLedger base (advanceCursor s) := by
  rcases advanceCursor_cases s with ⟨-, e⟩ | ⟨-, -, e⟩ | ⟨-, -, e⟩ <;> rw [e]
  · exact h.congr rfl rfl rfl rfl rfl Iff.rfl
  · exact h.congr rfl rfl rfl rfl rfl (by simp [hr])
  · exact h.congr rfl rfl rfl rfl rfl Iff.rfl

/-- A run may be finished after one more colour-table byte where a group is open, and after records outside the ledger. -/
theorem RunLedger.finish (h : RunLedger base s) (hr : s.runState = .ready) {rs : List Record}
    (hother : ∀ n ∈ [1, 2, 4, 7], countTag n rs = 0)
    (hbyte : countTag 3 rs = if s.mode = .mode0 ∧ s.tileIndex.toNat % 8 ≠ 0 then 1 else 0) :
    RunLedger base { s.emitAll rs with runState := .finalized } := by
  have hsame (n : Nat) (hn : n ∈ [1, 2, 4, 7]) : countTag n ((s.sink ++ rs).drop base) = countTag n (s.sink.drop base) := by
    rw [h.countTag_append_drop, hother n hn, Nat.add_zero]
  exact {
    base_le := h.base_le.trans (List.prefix_append _ _).length_le
    pat32 := (hsame 1 (by simp)).trans h.pat32
    pat8 := (hsame 2 (by simp)).trans h.pat8
    ctb := by
      refine (h.countTag_append_drop 3 rs).trans ?_
      rw [h.ctb, hbyte]
      by_cases hm : s.mode = .mode0 <;> simp [hm, hr]
    sym := (congrArg (· % 2 ^ 32) (hsame 4 (by simp))).trans h.sym
    diag := (hsame 7 (by simp)).trans h.diag }

/-- FINALIZE (R215) emits the byte of an open group in Mode-0, and records outside the ledger in Mode-4. -/
theorem RunLedger.finishOutputs (h : RunLedger base s) (hinv : BlockInvariant s) (hr : s.runState = .ready) :
    RunLedger base { finishOutputs s with runState := .finalized } := by
  unfold Machine.finishOutputs
  cases hm : s.mode with
  | mode4 =>
    have hnone {n : Nat} (h5 : 5 ≠ n) (h6 : 6 ≠ n) : countTag n (palRecords s.pal) = 0 := countTag_palRecords h5 h6 _
    exact h.finish hr (by simp [hnone]) (by simp [hnone, hm])
  | mode0 =>
    have hgp : s.groupPos = 0 ↔ s.tileIndex.toNat % 8 = 0 := by
      rw [← hinv.groupPos_index hm]
      bv_omega
    dsimp only
    rw [flush_eq]
    by_cases hz : s.groupPos = 0
    · rw [if_pos hz]
      exact h.finish hr (by simp) (by simp [hgp.mp hz])
    · rw [if_neg hz]
      exact h.finish hr (by simp [recordTag]) (by simp [recordTag, hm, mt hgp.mpr hz])

/-- Settles O57: each outcome of a command enters in the sink what the ledger counts. -/
theorem runLedgerKept : Obligations.RunLedgerKept := by
  refine ⟨fun s t m he => ?_, fun base i s t hinv h hi he => ?_⟩
  · cases he
    exact (runLedger_clearBlock s m).respond _ _
  rcases exec_cases he with ⟨m, rfl, -⟩ | ⟨-, ⟨st, v, rfl⟩ | ⟨w, ht, name, hr, -, -, -, rfl⟩ | ⟨hr, f, rfl⟩ |
    ⟨hr, s1, n, hs1, hn, rfl⟩ | ⟨hr, rfl⟩⟩
  case inl => exact absurd rfl (hi m)
  case inr.inl => exact h.respond st v
  case inr.inr.inl => exact (h.acceptImage hr w ht name).respond _ _
  case inr.inr.inr.inl => exact h.takeFault hr f
  case inr.inr.inr.inr.inl =>
    exact ((h.encodeTile hinv hr hs1 hn).advanceCursor ((encodeTile_runState_mode hs1).1.trans hr)).respond _ _
  case inr.inr.inr.inr.inr => exact (h.finishOutputs hinv hr).respond _ _

/-- The full groups of n tiles, and the open one. -/
theorem full_and_open_groups (n : Nat) : n / 8 + (if n % 8 ≠ 0 then 1 else 0) = (n + 7) / 8 := by
  split <;> omega

/-- Settles O58: the ledger after FINALIZE counts the full groups and the open one. -/
theorem colourTableLength : Obligations.ColourTableLength := by
  intro base s t hinv h hm hr he
  have ⟨_, hkept⟩ := runLedgerKept
  have hctb := (hkept base .finalize s t hinv h nofun he).ctb
  have hfault := (hinv.exec he).fault_clear
  rcases execFinalize_cases s with ⟨hne, -⟩ | ⟨-, e⟩
  · exact absurd hr hne
  cases he.symm.trans e
  obtain ⟨hcode, -⟩ := hfault nofun
  obtain ⟨rs, hrs⟩ := finishOutputs_frame s
  rw [hctb, outputValid, hcode, hrs]
  exact ⟨by simpa [hm] using full_and_open_groups s.tileIndex.toNat, rfl⟩

end Sys2Proof.Machine
end

section
/-! SUPPORT. The row word of Mode-4 as an encoding (R181, R182, R186), and the tile that neither encoder sees anything in: each
pixel transparent (R184, R194). -/

namespace Sys2Proof.Machine

variable {s : State} {t : List Pixel}

/-! ### Row words -/

/-- Settles O25: the layout of the planes in the word, for a column that the row has. -/
theorem rowWordBits : Obligations.RowWordBits := by
  intro row i x p hx hp hi
  rw [rowWord_getLsbD row hx hp, hi, Option.getD_some]

/-- The 32 bits of a word are those of eight columns and four planes (R181, R182). -/
theorem word_eq_of_columns {v w : Word}
    (h : ∀ x p, x < 8 → p < 4 → v.getLsbD (8 * p + (7 - x)) = w.getLsbD (8 * p + (7 - x))) : v = w := by
  refine BitVec.eq_of_getLsbD_eq fun k hk => ?_
  have hplace : 8 * (k / 8) + (7 - (7 - k % 8)) = k := by omega
  have hbit := h (7 - k % 8) (k / 8) (by omega) (by omega)
  rwa [hplace] at hbit

/-- Column x of an unpacked word (R186). -/
theorem unpackRow_getElem? (w : Word) {x : Nat} (hx : x < 8) : (unpackRow w)[x]? = some (unpackColumn w x) := by
  rw [unpackRow, List.getElem?_map, List.getElem?_range hx, Option.map_some]

theorem unpackRow_length (w : Word) : (unpackRow w).length = 8 := by
  rw [unpackRow, List.length_map, List.length_range]

/-- Unpacking a row word gives back its row (R186). -/
theorem unpackRow_rowWord {row : List (BitVec 4)} (h : row.length = 8) : unpackRow (rowWord row) = row := by
  refine List.ext_getElem ((unpackRow_length _).trans h.symm) fun x hx hx' => Option.some.inj ?_
  have hx8 : x < 8 := h ▸ hx'
  rw [← List.getElem?_eq_getElem hx, unpackRow_getElem? _ hx8, unpackColumn_rowWord row hx8, List.getElem?_eq_getElem hx',
    Option.getD_some]

/-- Packing an unpacked word gives back the word (R186). -/
theorem rowWord_unpackRow (w : Word) : rowWord (unpackRow w) = w := by
  refine word_eq_of_columns fun x p hx hp => ?_
  rw [rowWord_getLsbD _ hx hp, unpackRow_getElem? w hx, Option.getD_some, unpackColumn_getLsbD w hx hp]

/-- Settles O26: column by column, and bit by bit. -/
theorem unpackRowInverse : Obligations.UnpackRowInverse :=
  ⟨fun _ => unpackRow_rowWord, rowWord_unpackRow⟩

/-! ### Rows with nothing in them -/

/-- A row of zero indices is the zero word (R184). -/
theorem rowWord_eq_zero {row : List (BitVec 4)} (h : ∀ i ∈ row, i = 0) : rowWord row = 0 := by
  refine word_eq_of_columns fun x p hx hp => ?_
  have hcol : row[x]?.getD 0 = 0 := by
    cases hi : row[x]? with
    | none => rfl
    | some i => exact h i (List.mem_of_getElem? hi)
  rw [rowWord_getLsbD row hx hp, hcol]
  simp

/-- A row without the pair's foreground colour is the zero byte (R191). -/
theorem rowByte_eq_zero {ref : Vector Rgb 16} {pair : List (BitVec 4)} {row : List Pixel}
    (h : ∀ px ∈ row, pair[1]? ≠ some (classifyM0 ref px).1) : rowByte ref pair row = 0 := by
  refine BitVec.eq_of_getLsbD_eq fun k hk => ?_
  have hbit := rowByte_getLsbD ref pair row (x := 7 - k) (by omega)
  rw [show 7 - (7 - k) = k by omega] at hbit
  refine (hbit.trans (Bool.and_eq_false_imp.mpr fun hl => beq_false_of_ne fun e => ?_)).trans BitVec.getLsbD_zero.symm
  cases hpx : row[7 - k]? with
  | none =>
    have hl : pair.length = 2 := eq_of_beq hl
    simp [hpx, hl] at e
  | some px => exact h px (List.mem_of_getElem? hpx) (by rw [← e, hpx, Option.map_some])

/-- A tile whose rows all give the same gives it eight times. -/
theorem map_tileRows_eq_replicate {α β : Type} {l : List α} {f : List α → β} {b : β} (h : ∀ row, row ⊆ l → f row = b) :
    (tileRows l).map f = List.replicate 8 b := by
  refine List.eq_replicate_iff.mpr ⟨by rw [List.length_map, tileRows_length], fun c hc => ?_⟩
  rw [tileRows, List.map_map] at hc
  obtain ⟨y, -, rfl⟩ := List.mem_map.mp hc
  exact h _ (List.Subset.trans (List.take_subset _ _) (List.drop_subset _ _))

/-! ### The transparent tile in Mode-4 -/

/-- A transparent tile has index 0 everywhere and brings the palette no colour (R184). -/
theorem indexTile_transparent (P : List (BitVec 6)) : ∀ {t : List Pixel}, (∀ px ∈ t, px.a = 0) →
    indexTile P t = .ok (List.replicate t.length 0, P)
  | [], _ => rfl
  | px :: rest, h => by
    obtain ⟨hpx, hrest⟩ := List.forall_mem_cons.mp h
    have hhead : indexPixel P px = .ok (P, 0) := by rw [indexPixel, classifyM4_transparent hpx]
    rw [indexTile, hhead]
    simp only [indexTile_transparent P hrest]
    rfl

/-- An encoded tile of zero indices that leaves the palette as it is adds eight zero words (R184). -/
theorem BlockInvariant.withMode4Tile_zero (h : BlockInvariant s) (n : Nat) :
    s.withMode4Tile (List.replicate n 0) s.pal =
      { s with tileIndex := s.tileIndex + 1, sink := s.sink ++ List.replicate 8 (.pat32 0) } := by
  have hrows : ((tileRows (List.replicate n (0 : BitVec 4))).map fun row => Record.pat32 (rowWord row)) =
      List.replicate 8 (.pat32 0) :=
    map_tileRows_eq_replicate fun row hrow => by
      rw [rowWord_eq_zero fun i hi => List.eq_of_mem_replicate (hrow hi)]
  have hpal : (s.emitAll (List.replicate 8 (.pat32 0))).setPal s.pal = s.emitAll (List.replicate 8 (.pat32 0)) :=
    State.setPal_self (s.emitAll _) h.palCount_le
  rw [State.withMode4Tile, hrows, hpal]
  rfl

/-! ### The transparent tile in Mode-0 -/

/-- A transparent tile requires no colour (R150). -/
theorem testPair_transparent (ref : Vector Rgb 16) : ∀ {t : List Pixel}, (∀ px ∈ t, px.a = 0) → testPair ref t = .ok []
  | [], _ => rfl
  | px :: rest, h => by
    obtain ⟨hpx, hrest⟩ := List.forall_mem_cons.mp h
    rw [testPair, testPairFrom, classifyM0_transparent ref hpx]
    exact testPair_transparent ref hrest

/-- A transparent tile has no unmappable pixel (R193). -/
theorem unmappableSeen_transparent (ref : Vector Rgb 16) (h : ∀ px ∈ t, px.a = 0) : unmappableSeen ref t = false :=
  List.any_eq_false.mpr fun px hpx => by simp [classifyM0_transparent ref (h px hpx)]

/-- A transparent tile has no pixel of a foreground colour: index 0 is in no pair (R194). -/
theorem rowRecords_transparent (ref : Vector Rgb 16) {pair : List (BitVec 4)} (h0 : 0 ∉ pair) (h : ∀ px ∈ t, px.a = 0) :
    rowRecords ref pair t = List.replicate 8 (.pat8 0) :=
  map_tileRows_eq_replicate fun row hrow => by
    rw [rowByte_eq_zero fun px hpx e => ?_]
    rw [classifyM0_transparent ref (h px (hrow hpx))] at e
    exact h0 (List.mem_of_getElem? e)

/-- A tile without colours joins any group (R152). -/
theorem BlockInvariant.pair_joins_nil (h : BlockInvariant s) : (s.pair ++ []).dedup.length ≤ 2 :=
  compatible_iff.mp (compatible_of_subset h.isPair.length_le (List.Subset.refl _) (List.nil_subset _))

/-- A transparent tile is eight zero rows and a place in the open group, which keeps its pair (R194). -/
theorem BlockInvariant.withMode0Tile_transparent (h : BlockInvariant s) (ht : ∀ px ∈ t, px.a = 0) :
    s.withMode0Tile t [] =
      advanceGroup { s with tileIndex := s.tileIndex + 1, sink := s.sink ++ List.replicate 8 (.pat8 0) } := by
  have hwarn : s.warnIf false = s := rfl
  have hmerge : s.setPair (merge s.pair []) = s := s.setPair_self h.pairCount_le h.pairEntry0_zero h.pairEntry1_zero
  rw [State.withMode0Tile, unmappableSeen_transparent _ ht, hwarn, Machine.rolloverIfNeeded,
    if_pos (compatible_iff.mpr h.pair_joins_nil), Machine.placeTile, hmerge, rowRecords_transparent _ h.pair_nonzero ht]
  rfl

/-- What CT_ADVANCE leaves of the open group (R157). -/
theorem advanceGroup_effect (s : State) :
    (advanceGroup s).tileIndex = s.tileIndex ∧ (advanceGroup s).groupPos = s.groupPos + 1 ∧
      (advanceGroup s).warnUnmappable = s.warnUnmappable ∧ (advanceGroup s).pal = s.pal ∧
      (advanceGroup s).pair = (if s.groupPos = 7 then [] else s.pair) ∧
      (advanceGroup s).sink = s.sink ++ (if s.groupPos = 7 then [.ctb (ctByte s.pair)] else []) := by
  have hlast : s.groupPos.toNat + 1 = 8 ↔ s.groupPos = 7 := by bv_omega
  rw [advanceGroup_eq]
  simp only [hlast]
  by_cases h7 : s.groupPos = 7
  · have hwrap : s.groupPos + 1 = 0 := by rw [h7]; rfl
    rw [if_pos h7, if_pos h7, if_pos h7, hwrap]
    exact ⟨rfl, rfl, rfl, rfl, rfl, rfl⟩
  · rw [if_neg h7, if_neg h7, if_neg h7, List.append_nil]
    exact ⟨rfl, rfl, rfl, rfl, rfl, rfl⟩

/-! ### Both modes -/

/-- Settles O37: in both modes the tile is encoded, and what that does to the state is eight zero rows and one index more. -/
theorem transparentTileIsNeutral : Obligations.TransparentTileIsNeutral := by
  rintro s t hinv hr rfl ht hindex
  constructor <;> intro hm
  case left =>
    have hok := indexTile_transparent s.pal ht
    rcases exec_tile_mode4_cases hr hm with ⟨herr, -⟩ | ⟨idx, P, hi, ⟨hover, -⟩ | ⟨-, e⟩⟩
    · exact absurd (herr.symm.trans hok) nofun
    · omega
    · cases hi.symm.trans hok
      rw [e, hinv.withMode4Tile_zero]
  case right =>
    have hok := testPair_transparent s.refPalette ht
    have hpads : padsNeeded s [] = 0 := if_pos hinv.pair_joins_nil
    rcases exec_tile_mode0_cases hr hm with ⟨herr, -⟩ | ⟨test, htest, hend⟩
    · exact absurd (herr.symm.trans hok) nofun
    cases htest.symm.trans hok
    rw [hpads] at hend
    obtain ⟨hover, -⟩ | ⟨-, e⟩ := hend
    · omega
    refine ⟨_, e, ?_⟩
    rw [hinv.withMode0Tile_transparent ht]
    obtain ⟨_, _, _, hcursor⟩ := advanceCursor_frame
      (advanceGroup { s with tileIndex := s.tileIndex + 1, sink := s.sink ++ List.replicate 8 (.pat8 0) })
    rw [hcursor]
    exact advanceGroup_effect _

end Sys2Proof.Machine
end

section
/-! SUPPORT. The row byte of Mode-0: which columns of a row it marks (R191). -/

namespace Sys2Proof.Machine

/-- Settles O35: the bit that the scan of the row puts at a column, read at a column that the row has. -/
theorem rowByteForeground : Obligations.RowByteForeground := by
  intro ref pair row px x hx hpx
  have hbit := rowByte_getLsbD ref pair row hx
  rw [hpx, Option.map_some] at hbit
  calc
    (rowByte ref pair row).getLsbD (7 - x) = true
      ↔ pair.length = 2 ∧ some (classifyM0 ref px).1 = pair[1]? := by
        rw [hbit, Bool.and_eq_true, beq_iff_eq, beq_iff_eq]
    _ ↔ pair.length = 2 ∧ pair[1]? = some (classifyM0 ref px).1 := and_congr_right' eq_comm

end Sys2Proof.Machine
end

section
/-! SUPPORT. The cursor of an active image: how AdvanceCursor and TILE move it over the tile grid (R211). -/

namespace Sys2Proof.Machine

variable {s t : State}

/-- From `s` to `t` the cursor of the image has gone to the next tile of the row-major order, and the image is complete where that
is the row below the grid (R204, R211). -/
structure CursorMovedOn (s t : State) : Prop where
  imgW : t.imgW = s.imgW
  imgH : t.imgH = s.imgH
  ordinal : cursorOrdinal t = cursorOrdinal s + 1
  curTX_lt : t.curTX.toNat < t.imgW.toNat / 8
  place : t.runState = .ready ∧ t.curTX = 0 ∧ t.curTY.toNat = t.imgH.toNat / 8 ∨
    t.runState = .image ∧ t.curTY.toNat < t.imgH.toNat / 8

/-- AdvanceCursor from a cursor in the grid (R33, R211): the next column, the next row, or the row below the grid. -/
theorem cursorMovedOn_advanceCursor (hr : s.runState = .image) (hx : s.curTX.toNat < s.imgW.toNat / 8)
    (hy : s.curTY.toNat < s.imgH.toNat / 8) : CursorMovedOn s (advanceCursor s) := by
  have hy1 : (s.curTY + 1).toNat = s.curTY.toNat + 1 := by bv_omega
  have hrow (hge : ¬ s.curTX.toNat + 1 < s.imgW.toNat / 8) :
      (s.curTY + 1).toNat * (s.imgW.toNat / 8) = cursorOrdinal s + 1 := by
    rw [hy1, Nat.succ_mul, cursorOrdinal]
    omega
  rcases advanceCursor_cases s with ⟨hlt, e⟩ | ⟨hge, hlast, e⟩ | ⟨hge, hne, e⟩ <;> rw [e]
  · have hx1 : (s.curTX + 1).toNat = s.curTX.toNat + 1 := by bv_omega
    exact ⟨rfl, rfl, congrArg (s.curTY.toNat * (s.imgW.toNat / 8) + ·) hx1, hx1.trans_lt hlt, .inr ⟨hr, hy⟩⟩
  · exact ⟨rfl, rfl, hrow hge, Nat.zero_lt_of_lt hx, .inl ⟨rfl, rfl, hlast⟩⟩
  · have hin : (s.curTY + 1).toNat < s.imgH.toNat / 8 := by omega
    exact ⟨rfl, rfl, hrow hge, Nat.zero_lt_of_lt hx, .inr ⟨hr, hin⟩⟩

/-- A TILE of the active image that does not fault moves the cursor on: the encoders leave it where it was. -/
theorem cursorMovedOn_exec_tile (hinv : BlockInvariant s) (hr : s.runState = .image) (he : exec .tile s = .next t)
    (hnf : t.runState ≠ .faulted) : CursorMovedOn s t := by
  obtain ⟨hx, hy⟩ := hinv.cursor_in_grid hr
  change execTile s = .next t at he
  rcases execTile_cases s with ⟨hne, -⟩ | ⟨-, ⟨f, -, e⟩ | ⟨s1, n, hs1, ⟨-, e⟩ | ⟨-, e⟩⟩⟩
  · exact absurd hr hne
  all_goals rw [e] at he; cases he
  · exact absurd rfl hnf
  · exact absurd rfl hnf
  · have hmoved := cursorMovedOn_advanceCursor (s := s1)
    obtain ⟨_, _, _, _, _, _, _, _, _, rfl⟩ := encodeTile_frame hs1
    obtain ⟨hw, hh, hord, hlt, hplace⟩ := hmoved hr hx hy
    exact ⟨hw, hh, hord, hlt, hplace⟩

/-- A cursor in the grid stands before the end of the row-major order (R33). -/
theorem cursorOrdinal_lt (hx : s.curTX.toNat < s.imgW.toNat / 8) (hy : s.curTY.toNat < s.imgH.toNat / 8) :
    cursorOrdinal s < s.imgW.toNat / 8 * (s.imgH.toNat / 8) := by
  rw [grid_rows hy, cursorOrdinal]
  omega

/-- Settles O52: the next place is the one after the last tile exactly where the cursor has left the grid. -/
theorem cursorIsRowMajor : Obligations.CursorIsRowMajor := by
  refine ⟨fun s => ?_, fun s t hinv hr he hnf => ?_⟩
  · obtain ⟨x, y, r, e⟩ := advanceCursor_frame s
    rw [e]
  · obtain ⟨hw, hh, hord, hlt, hplace⟩ := cursorMovedOn_exec_tile hinv hr he hnf
    rw [← hw, ← hh]
    refine ⟨rfl, rfl, hord, hlt, ?_⟩
    rcases hplace with ⟨hready, hx, hy⟩ | ⟨himage, hy⟩
    · have hend : cursorOrdinal t = t.imgW.toNat / 8 * (t.imgH.toNat / 8) := by
        rw [cursorOrdinal, hx, hy, Nat.mul_comm]
        rfl
      simp [hready, hend, hx, hy]
    · have hbefore := cursorOrdinal_lt hlt hy
      simp [himage, hbefore, hbefore.ne]

end Sys2Proof.Machine
end

section
/-! SUPPORT. IMAGE_BEGIN: its checks in their order, and what an accepted one does (R201 to R208, R249). -/

namespace Sys2Proof.Machine

variable {s : State} {w h : Word}

/-- The first check: RUN_STATE (R199, R246). -/
theorem exec_imageBegin_of_not_ready (name : List Byte) (hr : s.runState ≠ .ready) :
    exec (.imageBegin w h name) s = .next (s.reject .badState) := if_pos hr

/-- The second check: both sides are multiples of 8 (R202). -/
theorem exec_imageBegin_of_misaligned (name : List Byte) (hr : s.runState = .ready)
    (hd : w.toNat % 8 ≠ 0 ∨ h.toNat % 8 ≠ 0) :
    exec (.imageBegin w h name) s = .next (s.reject .invalidDimensions) :=
  (if_neg (not_not_intro hr)).trans (if_pos hd)

/-- After the first two checks comes the one of the buffer (R203, R275). -/
theorem exec_imageBegin_of_aligned (name : List Byte) (hr : s.runState = .ready) (hw : w.toNat % 8 = 0)
    (hh : h.toNat % 8 = 0) :
    exec (.imageBegin w h name) s =
      if s.imageBound = false then .refused .imageNotBound
      else if s.imgLen < 4 * w.toNat * h.toNat then .next (s.reject .imageBufferShort)
      else .next ((acceptImage w h name s).respond .ok 0) :=
  (if_neg (not_not_intro hr)).trans (if_neg (by omega))

/-- Settles O16: the command passes every check, and the accepted image is the update written out. -/
theorem imageBeginAccepted : Obligations.ImageBeginAccepted := fun _ _ _ name hr hw hh hb hlen =>
  exec_imageBegin_of_accepted name hr hw hh hb hlen

/-- Settles O17: the three rejections, each after the checks before it have passed. -/
theorem imageBeginErrorOrder : Obligations.ImageBeginErrorOrder := by
  refine fun s w h name => ⟨exec_imageBegin_of_not_ready name, exec_imageBegin_of_misaligned name,
    fun hr hw hh hb hshort => ?_⟩
  rw [exec_imageBegin_of_aligned name hr hw hh, if_neg (by simp [hb]), if_pos hshort]
  rfl

/-- Settles O18: every other command answers a next state, and no command writes whether a buffer is bound. -/
theorem unboundImageRefused : Obligations.UnboundImageRefused := by
  refine ⟨fun s w h name hr hw hh hb => ?_, fun i s hi => ?_⟩
  · rw [exec_imageBegin_of_aligned name hr hw hh, if_pos hb]
  · rcases exec_total i s with ⟨t, he⟩ | ⟨w, h, name, e, hr, hw, hh, hb, -⟩
    · obtain ⟨-, -, hbound, -⟩ := exec_hostFields he
      exact ⟨t, he, hbound⟩
    · exact absurd ((hi w h name e hr hw hh).symm.trans hb) nofun

end Sys2Proof.Machine
end

section
/-! SUPPORT. The symbol name of an image: where it is cut, and its bytes (R207). -/

namespace Sys2Proof.Machine

theorem stripExtension_of_notMem {name : List Byte} (h : dotByte ∉ name) : stripExtension name = name := if_neg h

/-- What follows the last full stop is cut off, and the full stop with it. -/
theorem stripExtension_append (stem : List Byte) {ext : List Byte} (h : dotByte ∉ ext) :
    stripExtension (stem ++ dotByte :: ext) = stem := by
  have hext : ∀ b ∈ ext.reverse, (b != dotByte) = true := fun b hb =>
    bne_iff_ne.mpr fun e => h (e ▸ List.mem_reverse.mp hb)
  have hrev : (stem ++ dotByte :: ext).reverse = ext.reverse ++ dotByte :: stem.reverse := by simp
  rw [stripExtension, if_pos (by simp), hrev, List.dropWhile_append_of_pos hext]
  simp

/-- The symbol byte, with the ASCII ranges as numbers. -/
theorem symbolByte_eq (b : Byte) :
    symbolByte b =
      if 97 ≤ b.toNat ∧ b.toNat ≤ 122 then BitVec.ofNat 8 (b.toNat - 32)
      else if 65 ≤ b.toNat ∧ b.toNat ≤ 90 ∨ 48 ≤ b.toNat ∧ b.toNat ≤ 57 then b
      else 95 := by
  have hlower (h : 97 ≤ b.toNat ∧ b.toNat ≤ 122) : b - 0x20 = BitVec.ofNat 8 (b.toNat - 32) := by
    bv_omega
  exact ite_congr rfl hlower fun _ => rfl

/-- Settles O19: the two forms of a name are the two cases of where it is cut. -/
theorem sanitizeStripsLastExtension : Obligations.SanitizeStripsLastExtension := by
  refine ⟨fun name h => ?_, fun stem ext h => ?_⟩
  · rw [sanitize, stripExtension_of_notMem h]
    exact List.map_congr_left fun b _ => symbolByte_eq b
  · rw [sanitize]
    exact (congrArg _ (stripExtension_append stem h)).trans (List.map_congr_left fun b _ => symbolByte_eq b)

end Sys2Proof.Machine
end

section
/-! SUPPORT. Exceptions: where a command is not admitted (R199, R246), how a run enters and leaves FAULTED (R251, R253), and how
many records a TILE emits (R279). -/

namespace Sys2Proof.Machine

variable {s t : State}

/-! ### Admission -/

/-- Outside the run states that admit it a command is rejected with BAD_STATE (R199). -/
theorem exec_of_not_admitted {i : Instr} (h : admitted i s.runState = false) : exec i s = .next (s.reject .badState) := by
  cases i with
  | runStart m => cases h
  | imageBegin w ht name => exact exec_imageBegin_of_not_ready name (beq_eq_false_iff_ne.mp h)
  | tile => exact if_pos (beq_eq_false_iff_ne.mp h)
  | finalize => exact if_pos (beq_eq_false_iff_ne.mp h)
  | readReg n => cases h

/-- Where a command is admitted, its last response is not BAD_STATE (R246). -/
theorem exec_response_of_admitted {i : Instr} (ha : admitted i s.runState = true) (h : exec i s = .next t) :
    ∃ rs st v, t.responses = rs ++ [⟨st, v⟩] ∧ st ≠ .badState := by
  cases i with
  | runStart m => cases h; exact ⟨s.responses, .ok, 0, rfl, nofun⟩
  | imageBegin w ht name =>
    have hr : s.runState = .ready := beq_iff_eq.mp ha
    change execImageBegin w ht name s = .next t at h
    rcases execImageBegin_cases w ht name s with ⟨st, e, hst⟩ | ⟨-, -, -, -, e⟩ | ⟨-, -, -, -, -, e⟩ <;> rw [e] at h <;> cases h
    · refine ⟨s.responses, st, 0, rfl, ?_⟩
      rcases hst with ⟨-, hne⟩ | ⟨-, rfl | rfl⟩
      · exact absurd hr hne
      · exact nofun
      · exact nofun
    · exact ⟨_, .ok, 0, rfl, nofun⟩
  | tile =>
    have hr : s.runState = .image := beq_iff_eq.mp ha
    change execTile s = .next t at h
    rcases execTile_cases s with ⟨hne, -⟩ | ⟨-, ⟨f, -, e⟩ | ⟨s1, n, -, ⟨-, e⟩ | ⟨-, e⟩⟩⟩
    · exact absurd hr hne
    all_goals rw [e] at h; cases h
    · exact ⟨s.responses, faultStatus f, 0, rfl, by cases f <;> exact nofun⟩
    · exact ⟨s.responses, .tileIndexOverflow, 0, rfl, nofun⟩
    · exact ⟨_, .ok, 0, rfl, nofun⟩
  | finalize =>
    have hr : s.runState = .ready := beq_iff_eq.mp ha
    change execFinalize s = .next t at h
    rcases execFinalize_cases s with ⟨hne, -⟩ | ⟨-, e⟩
    · exact absurd hr hne
    · rw [e] at h; cases h
      exact ⟨_, .ok, 0, rfl, nofun⟩
  | readReg n =>
    change execReadReg n s = .next t at h
    rcases execReadReg_cases n s with ⟨-, e⟩ | ⟨v, -, e⟩ <;> rw [e] at h <;> cases h
    · exact ⟨s.responses, .illegalCommand, 0, rfl, nofun⟩
    · exact ⟨s.responses, .ok, v, rfl, nofun⟩

/-- Settles O13: a command that is not admitted is rejected, and one that is admitted ends with another response. -/
theorem badStateRejected : Obligations.BadStateRejected := by
  refine fun i s => ⟨exec_of_not_admitted, fun ha t h hbad => ?_⟩
  obtain ⟨rs, st, v, hresp, hst⟩ := exec_response_of_admitted ha h
  have hlast := List.append_inj_right' (hresp.symm.trans hbad) rfl
  cases hlast
  exact hst rfl

/-- Settles O8: an empty channel gives the block nothing to serve. -/
theorem idleBlockKeepsState : Obligations.IdleBlockKeepsState := fun _ => step_of_input_nil

/-! ### Entering FAULTED -/

/-- Settles O39: where the encoder succeeds, the index check alone decides how the TILE ends. -/
theorem tileIndexOverflowFaults : Obligations.TileIndexOverflowFaults := by
  rintro s t hr rfl
  refine ⟨fun idx P hm hi hover => ?_, fun test hm ht hover => ?_⟩
  · rcases exec_tile_mode4_cases hr hm with ⟨herr, -⟩ | ⟨_, _, -, ⟨-, e⟩ | ⟨hfits, -⟩⟩
    · exact absurd (herr.symm.trans hi) nofun
    · exact e
    · exact absurd hover hfits.not_gt
  · rcases exec_tile_mode0_cases hr hm with ⟨herr, -⟩ | ⟨test', ht', hend⟩
    · exact absurd (herr.symm.trans ht) nofun
    obtain rfl := Except.ok.inj (ht'.symm.trans ht)
    obtain ⟨-, e⟩ | ⟨hfits, -⟩ := hend
    · exact e
    · exact absurd hover hfits.not_gt

/-- AdvanceCursor (R211) does not lead to FAULTED. -/
theorem advanceCursor_not_faulted (h : s.runState ≠ .faulted) : (advanceCursor s).runState ≠ .faulted := by
  rcases advanceCursor_cases s with ⟨-, e⟩ | ⟨-, -, e⟩ | ⟨-, -, e⟩ <;> rw [e]
  · exact h
  · exact nofun
  · exact h

/-- An accepted image is active or, with a side of 0, complete (R204). -/
theorem acceptImage_not_faulted (w ht : Word) (name : List Byte) (s : State) :
    (acceptImage w ht name s).runState ≠ .faulted := by
  simp only [acceptImage]
  split <;> exact nofun

/-- A command enters FAULTED only by taking a fatal fault in IMAGE (R250). -/
theorem exec_enters_faulted {i : Instr} (h : exec i s = .next t) (hs : s.runState ≠ .faulted) (hf : t.runState = .faulted) :
    s.runState = .image ∧ ∃ f, t = s.takeFault f := by
  rcases exec_cases h with ⟨m, -, rfl⟩ | ⟨-, ⟨st, v, rfl⟩ | ⟨w, ht, name, -, -, -, -, rfl⟩ | hfault |
    ⟨hr, s1, n, hs1, -, rfl⟩ | ⟨-, rfl⟩⟩
  case inl => cases hf
  case inr.inl => exact absurd hf hs
  case inr.inr.inl => exact absurd hf (acceptImage_not_faulted w ht name s)
  case inr.inr.inr.inl => exact hfault
  case inr.inr.inr.inr.inl =>
    have hs1r : s1.runState ≠ .faulted := (encodeTile_runState_mode hs1).1 ▸ hs
    exact absurd hf (advanceCursor_not_faulted hs1r)
  case inr.inr.inr.inr.inr => cases hf

/-- No command but TILE takes an active image to FAULTED: IMAGE_BEGIN and FINALIZE are not admitted in IMAGE (R199), RUN_START
ends in READY and READ_REG only responds. -/
theorem eq_tile_of_image_to_faulted {i : Instr} (h : exec i s = .next t) (hr : s.runState = .image)
    (hf : t.runState = .faulted) : i = .tile := by
  have hrejected (hna : admitted i s.runState = false) : i = .tile := by
    rw [exec_of_not_admitted hna] at h
    cases h
    exact absurd (hr.symm.trans hf) nofun
  cases i with
  | tile => rfl
  | runStart m => cases h; cases hf
  | imageBegin w ht name => exact hrejected (hr ▸ rfl)
  | finalize => exact hrejected (hr ▸ rfl)
  | readReg n =>
    change execReadReg n s = .next t at h
    rcases execReadReg_cases n s with ⟨-, e⟩ | ⟨v, -, e⟩ <;> rw [e] at h <;> cases h <;>
      exact absurd (hr.symm.trans hf) nofun

/-- Settles O40: only taking a fatal fault enters FAULTED, and only TILE takes one. -/
theorem faultsArePrecise : Obligations.FaultsArePrecise := by
  intro i s t h hs ht
  obtain ⟨hr, f, rfl⟩ := exec_enters_faulted h hs ht
  refine ⟨eq_tile_of_image_to_faulted h hr ht, hr, ?_⟩
  cases f with
  | tooManyColoursInTile => exact .inl rfl
  | paletteOverflow => exact .inr (.inl rfl)
  | tileIndexOverflow => exact .inr (.inr rfl)

/-! ### Leaving FAULTED -/

/-- A command that starts no run only responds in FAULTED (R253). -/
theorem exec_of_faulted {i : Instr} (hs : s.runState = .faulted) (h : exec i s = .next t) (hi : ∀ m, i ≠ .runStart m) :
    ∃ st v, t = s.respond st v := by
  rcases exec_cases h with ⟨m, rfl, -⟩ | ⟨-, hresp | ⟨_, _, _, hr, -⟩ | ⟨hr, -⟩ | ⟨hr, -⟩ | ⟨hr, -⟩⟩
  case inl => exact absurd rfl (hi m)
  case inr.inl => exact hresp
  all_goals exact absurd (hs.symm.trans hr) nofun

/-- A READ_REG of an implemented register answers its value (R220). -/
theorem exec_readReg_of_some {n : BitVec 8} {v : Word} (h : regValue s n = some v) :
    exec (.readReg n) s = .next (s.respond .ok v) := by
  change execReadReg n s = _
  rw [execReadReg, h]

/-- Settles O41: FAULTED admits neither IMAGE_BEGIN, TILE nor FINALIZE, and both resets clear the block from any state. -/
theorem faultedIsSticky : Obligations.FaultedIsSticky := by
  refine fun s hs => ⟨fun i t h hi => ?_, fun i hi => exec_of_not_admitted ?_, fun n v => exec_readReg_of_some,
    fun m => ⟨_, rfl, (atResetValues_clearBlock s .ready m).respond .ok 0⟩, fun hinput => ?_⟩
  · obtain ⟨st, v, rfl⟩ := exec_of_faulted hs h hi
    rfl
  · rw [hs]
    obtain ⟨w, ht, name, rfl⟩ | rfl | rfl := hi <;> rfl
  · obtain ⟨u, hu, -, -, -, -, -, -, -, -, -, hstep⟩ := powerOnResetFromAnyState s [] hinput
    exact ⟨u, hstep rfl, hu⟩

/-! ### Records of a TILE -/

/-- A Mode-4 tile is eight rows (R183). -/
theorem State.withMode4Tile_sink_length (s : State) (idx : List (BitVec 4)) (P : List (BitVec 6)) :
    (s.withMode4Tile idx P).sink.length = s.sink.length + 8 := by
  simp [State.withMode4Tile, tileRows_length]

/-- A tile that needs pad tiles finds a group open, so there are at most seven of them (R32, R153). -/
theorem BlockInvariant.padsNeeded_le (h : BlockInvariant s) (hm : s.mode = .mode0) {test : List (BitVec 4)}
    (ht : IsPair test) : padsNeeded s test ≤ 7 := by
  unfold padsNeeded
  split
  next => exact Nat.zero_le 7
  next hj =>
    have hopen : s.groupPos ≠ 0 := fun hgp => by
      have hpair : s.pair = [] := by simp [State.pair, h.pair_fresh hm hgp]
      exact hj (hpair ▸ (List.dedup_sublist test).length_le.trans ht.length_le)
    bv_omega

/-- A Mode-0 tile is eight rows, eight more for each pad tile, and at most one diagnostic and one colour-table byte
(R153, R157, R193). -/
theorem BlockInvariant.withMode0Tile_sink_length (h : BlockInvariant s) {test : List (BitVec 4)} (ht : IsPair test)
    (p : List Pixel) :
    ∃ extra ≤ 2, (s.withMode0Tile p test).sink.length = s.sink.length + 8 * (padsNeeded s test + 1) + extra := by
  have hite (c : Prop) [Decidable c] (r : Record) : (if c then [r] else []).length ≤ 1 := by
    split <;> simp
  have hwarn := hite ((unmappableSeen s.refPalette p && !s.warnUnmappable) = true) (.diag 4)
  by_cases hj : (s.pair ++ test).dedup.length ≤ 2
  · have hbyte := hite (s.groupPos.toNat + 1 = 8) (.ctb (ctByte (s.pair ++ test.filter (· ∉ s.pair))))
    refine ⟨_, Nat.add_le_add hwarn hbyte, ?_⟩
    rw [h.withMode0Tile_of_joins ht hj, padsNeeded, if_pos hj]
    simp only [List.length_append, List.length_map, List.length_range]
    omega
  · refine ⟨_, Nat.succ_le_succ hwarn, ?_⟩
    rw [State.withMode0Tile_of_rollover ht hj, padsNeeded, if_neg hj]
    simp only [List.length_append, List.length_map, List.length_range, List.length_replicate, List.length_singleton]
    omega

/-- Settles O54: a fault keeps the sink, and an encoded tile adds what its mode's encoder emits. -/
theorem recordsPerTile : Obligations.RecordsPerTile := by
  refine fun s t hinv hr h => ⟨fun hf => ?_, fun hnf hm => ?_, fun hnf hm => ?_⟩
  · obtain ⟨-, f, rfl⟩ := exec_enters_faulted h (by simp [hr]) hf
    rfl
  · rcases exec_tile_mode4_cases hr hm with ⟨-, e⟩ | ⟨idx, P, -, ⟨-, e⟩ | ⟨-, e⟩⟩ <;> rw [h] at e <;> cases e
    · exact absurd rfl hnf
    · exact absurd rfl hnf
    · obtain ⟨-, hsink, -⟩ := advanceCursor_pal_sink_faultCode (s.withMode4Tile idx P)
      exact (congrArg List.length hsink).trans (s.withMode4Tile_sink_length idx P)
  · rcases exec_tile_mode0_cases hr hm with ⟨-, e⟩ | ⟨test, ht, ⟨-, e⟩ | ⟨-, e⟩⟩ <;> rw [h] at e <;> cases e
    · exact absurd rfl hnf
    · exact absurd rfl hnf
    · obtain ⟨-, hsink, -⟩ := advanceCursor_pal_sink_faultCode (s.withMode0Tile (cursorTile s) test)
      have hpair := isPair_testPair ht
      have hpads := hinv.padsNeeded_le hm hpair
      obtain ⟨extra, hextra, hlen⟩ := hinv.withMode0Tile_sink_length hpair (cursorTile s)
      rw [State.respond_sink, hsink]
      omega

end Sys2Proof.Machine
end
